-- ==== Sys2Proof/Word.lean ====
section
/-! DEFINITION. The two word types of XMC (spec 00_scope.md R8): a byte and a half-word. No value of the spec is signed. -/

namespace Sys2Proof

/-- An 8-bit unsigned value 0..255 (R8; parameter BYTE_W of R7). -/
abbrev Byte := BitVec 8

/-- A 16-bit unsigned value 0..65535 (R8; parameters CRC_W and CMD_W of R7). -/
abbrev Half := BitVec 16

end Sys2Proof
end

