-- ==== Sys2Proof/Syntax.lean ====
section
/-! DEFINITION. The commands of XMC (spec 30_encoding.md R62): one constructor per row of opcode_table.json, and the
one command format CMD16 (R60). -/

namespace Sys2Proof

/-- The fifteen commands of R62. An operand is the ARG byte (R61); a command whose ARG must be zero has none. -/
inductive Instr where
  | sysReset                -- SYS.RESET, 44_system.md R130
  | crcClr                  -- CRC.CLR,   40_crc_generator.md R73
  | crcByte (b : Byte)      -- CRC.BYTE,  R74
  | txSoh (sn : Byte)       -- TX.SOH,    42_tx_framer.md R96
  | txData (b : Byte)       -- TX.DATA,   R97
  | txEnd                   -- TX.END,    R98
  | txAck                   -- TX.ACK,    R100
  | txNak                   -- TX.NAK,    R101
  | txEot                   -- TX.EOT,    R102
  | txEtb                   -- TX.ETB,    R103
  | txCan                   -- TX.CAN,    R104
  | txSync                  -- TX.SYNC,   R105
  | rxStart (e : Byte)      -- RX.START,  43_rx_deframer.md R110
  | rxByte (b : Byte)       -- RX.BYTE,   R111
  | rxResp (r : Byte)       -- RX.RESP,   R119
  deriving DecidableEq, Repr

/-- The fields of a command word in the one format CMD16 (R60): OP in bits 15:8, ARG in bits 7:0. Any pair of bytes is
a `Cmd16`; which pairs are commands is `Cmd16.wellFormed` (R63). -/
structure Cmd16 where
  op  : Byte
  arg : Byte
  deriving DecidableEq, Repr

end Sys2Proof
end

