-- ==== Sys2Proof/WellFormed.lean ====
section
/-! DEFINITION. Which command words are commands (spec 30_encoding.md R63, R64). Every term of `Instr` is well formed
by its type (its operand is a byte, and every byte value is legal, R61), so the checks stand on the words: the
operation code must be assigned, and a zero-ARG command must have ARG = 0x00. -/

namespace Sys2Proof

/-- The OP values of the nine commands whose ARG column in R62 is `0`. -/
def zeroArgOps : List Byte := [0x01, 0x10, 0x22, 0x30, 0x31, 0x32, 0x33, 0x34, 0x35]

/-- The OP values of the six operand commands of R62. -/
def operandOps : List Byte := [0x11, 0x20, 0x21, 0x40, 0x41, 0x42]

/-- First check of R63: OP is one of the 15 values of R62. -/
def Cmd16.opAssigned (c : Cmd16) : Bool := zeroArgOps.contains c.op || operandOps.contains c.op

/-- Second check of R63: a command whose ARG column is `0` has ARG = 0x00. -/
def Cmd16.argAllowed (c : Cmd16) : Bool := !zeroArgOps.contains c.op || c.arg == 0

/-- A word is a command when both checks of R63 pass; every other word is illegal (R64). -/
def Cmd16.wellFormed (c : Cmd16) : Bool := c.opAssigned && c.argAllowed

end Sys2Proof
end

