-- ==== Sys2Proof/Decode.lean ====
section
/-! DEFINITION. Decoding and encoding of command words (spec 30_encoding.md R60 to R65, opcode_table.json). `decode` is
total over all 65536 words and rejects an illegal word with a reason; an illegal word is no refusal of the model, it
has the effect of R64 (Machine/CommandPort.lean). A command is one 16-bit transaction, so no byte order applies (R50). -/

namespace Sys2Proof

/-- Why a word is illegal (R64): its OP is unassigned, or it is a zero-ARG command with ARG ≠ 0x00. -/
inductive DecodeError where
  | unassignedOp (op : Byte)
  | nonzeroArg (mnemonic : String) (arg : Byte)
  deriving DecidableEq, Repr

/-- OP, bits 15:8 of a command word (R60). -/
def opOf (w : Half) : Byte := w.extractLsb' 8 8

/-- ARG, bits 7:0 of a command word (R60). -/
def argOf (w : Half) : Byte := w.extractLsb' 0 8

/-- The two fields of a word (R60). -/
def Cmd16.ofWord (w : Half) : Cmd16 := { op := opOf w, arg := argOf w }

/-- `word = (OP << 8) | ARG` (R60). -/
def Cmd16.toWord (c : Cmd16) : Half := (c.op.zeroExtend 16 <<< 8) ||| c.arg.zeroExtend 16

/-- A zero-ARG command of R62: legal only with ARG = 0x00. -/
def decodeZeroArg (i : Instr) (mnemonic : String) (arg : Byte) : Except DecodeError Instr :=
  if arg = 0 then .ok i else .error (.nonzeroArg mnemonic arg)

/-- The opcode map of R62, by OP; R64 lists the values left over. -/
def decodeFields (op arg : Byte) : Except DecodeError Instr :=
  match op.toNat with
  | 0x01 => decodeZeroArg .sysReset "SYS.RESET" arg
  | 0x10 => decodeZeroArg .crcClr "CRC.CLR" arg
  | 0x11 => .ok (.crcByte arg)
  | 0x20 => .ok (.txSoh arg)
  | 0x21 => .ok (.txData arg)
  | 0x22 => decodeZeroArg .txEnd "TX.END" arg
  | 0x30 => decodeZeroArg .txAck "TX.ACK" arg
  | 0x31 => decodeZeroArg .txNak "TX.NAK" arg
  | 0x32 => decodeZeroArg .txEot "TX.EOT" arg
  | 0x33 => decodeZeroArg .txEtb "TX.ETB" arg
  | 0x34 => decodeZeroArg .txCan "TX.CAN" arg
  | 0x35 => decodeZeroArg .txSync "TX.SYNC" arg
  | 0x40 => .ok (.rxStart arg)
  | 0x41 => .ok (.rxByte arg)
  | 0x42 => .ok (.rxResp arg)
  | _ => .error (.unassignedOp op)

/-- Decoding of R63: OP selects the command. -/
def decode (w : Half) : Except DecodeError Instr := decodeFields (opOf w) (argOf w)

/-- The fields of a command, from opcode_table.json: OP, and the operand or 0x00 as ARG. -/
def fieldsOf (i : Instr) : Cmd16 :=
  match i with
  | .sysReset => { op := 0x01, arg := 0 }
  | .crcClr => { op := 0x10, arg := 0 }
  | .crcByte b => { op := 0x11, arg := b }
  | .txSoh sn => { op := 0x20, arg := sn }
  | .txData b => { op := 0x21, arg := b }
  | .txEnd => { op := 0x22, arg := 0 }
  | .txAck => { op := 0x30, arg := 0 }
  | .txNak => { op := 0x31, arg := 0 }
  | .txEot => { op := 0x32, arg := 0 }
  | .txEtb => { op := 0x33, arg := 0 }
  | .txCan => { op := 0x34, arg := 0 }
  | .txSync => { op := 0x35, arg := 0 }
  | .rxStart e => { op := 0x40, arg := e }
  | .rxByte b => { op := 0x41, arg := b }
  | .rxResp r => { op := 0x42, arg := r }

/-- The word of a command (R60, R62). -/
def encode (i : Instr) : Half := (fieldsOf i).toWord

/-- What the decoder reads from a table row's word: bit 0 of `w` is bit 0 of the command word; bits from `nbits` up
are 0. `none` where the word is illegal. -/
def decodeTableWord (nbits w : Nat) : Option Instr :=
  match decode (BitVec.ofNat 16 (w % 2 ^ nbits)) with
  | .ok i => some i
  | .error _ => none

end Sys2Proof
end

