-- ==== Sys2Proof/Machine/Params.lean ====
section
/-! DEFINITION. The parameters the spec fixes (00_scope.md R7) and the control codes (41_codec_fields.md R80). -/

namespace Sys2Proof.Machine

/-- CRC_POLY (R7). -/
def crcPoly : Half := 0x1021

/-- CRC_INIT (R7). -/
def crcInit : Half := 0x0000

/-- PAYLOAD_LEN in bytes (R7). -/
def payloadLen : Nat := 128

/-- PAYLOAD_LEN as a value of the counters TXCNT and RXCNT. -/
def payloadLenByte : Byte := 128

/-- HDR_LEN in bytes (R7). -/
def hdrLen : Nat := 3

/-- FRAME_LEN in bytes: 3 + 128 + 2 (R7). -/
def frameLen : Nat := 133

/-- CTRL_FRAME_LEN in bytes (R7, decision D14). -/
def ctrlFrameLen : Nat := 1

/-- PAD_BYTE (R7). -/
def padByte : Byte := 0x00

/-- SOH, first byte of a data frame (R80). -/
def sohCode : Byte := 0x01
/-- EOT (R80). -/
def eotCode : Byte := 0x04
/-- ACK (R80). -/
def ackCode : Byte := 0x06
/-- NAK (R80). -/
def nakCode : Byte := 0x15
/-- ETB (R80). -/
def etbCode : Byte := 0x17
/-- CAN (R80). -/
def canCode : Byte := 0x18
/-- SYNC, the character 'C' (R80). -/
def syncCode : Byte := 0x43

/-- SEQ_INIT, the first sequence number of a transfer (R7; host). -/
def seqInit : Byte := 1

/-- MAX_RETRY (R7; host). -/
def maxRetry : Nat := 3

/-- BACKOFF in seconds (R7; host). -/
def backoffSeconds : Nat := 1

/-- SYNC_TIMEOUT in seconds (R7; host). -/
def syncTimeoutSeconds : Nat := 3

end Sys2Proof.Machine
end

