-- ==== Sys2Proof/Machine/Crc.lean ====
section
/-! DEFINITION. The one CRC function of XMC (spec 40_crc_generator.md R70, R71, R78). Three accumulators use it: CRC,
TXCRC and RXCRC. -/

namespace Sys2Proof.Machine

/-- One of the eight rounds of R70: the top bit is tested before the shift; the bit shifted out is lost. -/
def crcRound (c : Half) : Half :=
  if c.getLsbD 15 then (c <<< 1) ^^^ crcPoly else c <<< 1

/-- `n` rounds. -/
def crcRounds : Nat → Half → Half
  | 0, c => c
  | n + 1, c => crcRounds n (crcRound c)

/-- `upd16(c, b)` (R70): the byte enters at the top 8 bits, then 8 rounds. -/
def upd16 (c : Half) (b : Byte) : Half :=
  crcRounds 8 (c ^^^ (b.zeroExtend 16 <<< 8))

/-- The fold of R71 started from the running value `c`, in list order. -/
def crcFold (c : Half) (xs : List Byte) : Half := xs.foldl upd16 c

/-- `crc16(xs)` (R71): from CRC_INIT, no final XOR, no reflection. -/
def crc16 (xs : List Byte) : Half := crcFold crcInit xs

end Sys2Proof.Machine
end

