-- ==== Sys2Proof/Machine/State.lean ====
section
/-! DEFINITION. The state of XMC (spec 10_state.md R22 to R44), the state after reset (70_reset_and_hazards.md R170),
and the reasons a step can stop. STATUS (R34) is a packing of other fields: it is stored once, in them, and computed
by `State.status` (Machine/Flags.lean). -/

namespace Sys2Proof.Machine

/-- TXST, the framer state (R24): 0 IDLE, 1 PAY. -/
inductive TxState where
  | idle | pay
  deriving DecidableEq, Repr

/-- RXST, the deframer state (R27). Code 7 is never produced, so it has no constructor (I5; log 6). -/
inductive RxState where
  | idle | ctl | seq | cpl | pay | crcH | crcL
  deriving DecidableEq, Repr

/-- RXV, the verdict of the last frame (R31). Codes 8..15 are never produced (I5; log 6). -/
inductive Verdict where
  | none | dataOk | eot | etb | can | badCtl | seqErr | crcErr
  deriving DecidableEq, Repr

/-- RESP, the class of the last response byte (R33). Codes 5..7 are never produced (I5; log 6). -/
inductive RespClass where
  | none | ack | nak | sync | other
  deriving DecidableEq, Repr

/-- ERR, the outcome of the most recent command (R35). Codes 5..7 are never produced (I5; log 6). -/
inductive ErrCode where
  | ok | illegal | state | busy | full
  deriving DecidableEq, Repr

/-- The reset input (70_reset_and_hazards.md R170, R171): no reset has happened yet since power-on; the input is
asserted; a reset has happened and the input is released (log 3, log 4). -/
inductive ResetPhase where
  | powerOn | asserted | released
  deriving DecidableEq, Repr

/-- What the host can present to the block: a word on the command port (30_encoding.md R60), or a new level of the
reset input, true for asserted (R170). Reading the read port changes no state (20_memory.md R54), so it is no event. -/
inductive PortEvent where
  | command (w : Half)
  | resetLine (level : Bool)
  deriving DecidableEq, Repr

/-- The registers of 10_state.md R22, the output stream TXOUT (R38), the reset input's phase, and the MODEL'S OWN field
`inputs`: what the host has presented and the block has not yet taken, oldest first (DESIGN CHOICE, log 1). -/
structure State where
  /-- CRC, index 0x1: the generator's accumulator (R23). -/
  crc : Half
  /-- TXCRC, index 0x2: the framer's CRC accumulator (R25). -/
  txcrc : Half
  /-- TXCNT, index 0x3: payload bytes emitted in the current frame (R26). -/
  txcnt : Byte
  /-- RXCRC, index 0x4: the deframer's CRC accumulator (R30). -/
  rxcrc : Half
  /-- RXRCRC, index 0x5: the CRC field received (R32). -/
  rxrcrc : Half
  /-- RXCNT, index 0x6: payload bytes consumed in the current frame (R30). -/
  rxcnt : Byte
  /-- RXEXP, index 0x7: the expected sequence number (R28). -/
  rxexp : Byte
  /-- RXCTL, index 0x8: the first byte of the last frame (R29). -/
  rxctl : Byte
  /-- RXSEQ, index 0x9: the sequence byte of the last data frame header (R29). -/
  rxseq : Byte
  /-- RXCPL, index 0xA: the sequence complement byte of the last data frame header (R29). -/
  rxcpl : Byte
  /-- RESPB, index 0xB: the last response byte classified (R33). -/
  respb : Byte
  /-- TXST, visible as STATUS.TXBUSY (R24). -/
  txst : TxState
  /-- RXST, visible as STATUS.RXST (R27). -/
  rxst : RxState
  /-- RXV, visible as STATUS.RXV (R31). -/
  rxv : Verdict
  /-- RESP, visible as STATUS.RESP (R33). -/
  resp : RespClass
  /-- ERR, visible as STATUS.ERR (R35). -/
  err : ErrCode
  /-- ERRS, the sticky error flag, visible as STATUS.ERRS (R36). -/
  errs : Bool
  /-- TXOUT, every byte emitted, in the order emitted (R38). -/
  txout : List Byte
  /-- The reset input's phase (R170, R171). -/
  phase : ResetPhase
  /-- Not the block's: what the host has presented, oldest first (log 1). -/
  inputs : List PortEvent
  deriving DecidableEq, Repr

/-- The block right after the reset input is released (R170): every register 0x0000 or 0x00 or its zero code. TXOUT is
empty because no byte has been emitted (DEDUCED, log 5), and the host has presented nothing yet (DESIGN CHOICE, log 1). -/
def State.reset : State where
  crc := 0x0000
  txcrc := 0x0000
  txcnt := 0x00
  rxcrc := 0x0000
  rxrcrc := 0x0000
  rxcnt := 0x00
  rxexp := 0x00
  rxctl := 0x00
  rxseq := 0x00
  rxcpl := 0x00
  respb := 0x00
  txst := .idle
  rxst := .idle
  rxv := .none
  resp := .none
  err := .ok
  errs := false
  txout := []
  phase := .released
  inputs := []

/-- The faults of the block: NONE. The spec gives it no trap and no stop (60_exceptions.md R140); a failed check is a
state change of STATUS.ERR and STATUS.ERRS (R135). With no constructor, that no step faults is a fact of the type
(safe; DEDUCED, log 9). -/
inductive Fault
  deriving DecidableEq, Repr

/-- The refusals of the model. -/
inductive Refusal where
  /-- A command whose meaning is not written: raised by an arm of `exec` only. Safe. No arm raises it now. -/
  | notModelled (mnemonic : String)
  /-- A command presented before the first reset: raised by the step, never by an instruction. The spec asks for it:
  "gives no meaning to any command issued before the first reset (a refusal at model level)" (R171, I4). Safe (log 4). -/
  | beforeFirstReset
  deriving DecidableEq, Repr

end Sys2Proof.Machine
end

