-- ==== Sys2Proof/Machine/Operands.lean ====
section
/-! DEFINITION. The codec's fields and frame functions, and what a byte operand means to each unit (spec
41_codec_fields.md R80 to R91). Pure functions; the commands are written in terms of them. -/

namespace Sys2Proof.Machine

/-- `zext_16(v)` (00_scope.md R8). -/
def zext16 (v : Byte) : Half := v.zeroExtend 16

/-- Sequence complement, `cpl(s) = 0xFF - s` (R81; 8-bit, conflict C1). -/
def cpl (v : Byte) : Byte := 0xFF - v

/-- Header, `hdr(ctl, s) = [ctl, s, cpl(s)]` (R82). -/
def hdr (ctl v : Byte) : List Byte := [ctl, v, cpl v]

/-- The pad bytes that follow a chunk of `n` payload bytes: none when n ≥ 128 (R83, and the loop of R98). -/
def padding (n : Nat) : List Byte := List.replicate (payloadLen - n) padByte

/-- `pad(xs) = xs ++ rep(128 - n, 0x00)` for a chunk of at most 128 bytes (R83). -/
def pad (xs : List Byte) : List Byte := xs ++ padding xs.length

/-- `crc_field(c) = [c[15:8], c[7:0]]`, big-endian (R84, 20_memory.md R47). -/
def crcField (c : Half) : List Byte := [c.extractLsb' 8 8, c.extractLsb' 0 8]

/-- `crc_unfield(h, l) = (zext_16(h) << 8) | zext_16(l)` (R85). -/
def crcUnfield (h l : Byte) : Half := (zext16 h <<< 8) ||| zext16 l

/-- `frame(s, xs)` (R86): header, padded payload, CRC field over the padded payload. -/
def frame (v : Byte) (xs : List Byte) : List Byte := hdr sohCode v ++ pad xs ++ crcField (crc16 (pad xs))

/-- The classes of a frame's first byte (R87). -/
inductive CtlClass where
  | data | eot | etb | can | badCtl
  deriving DecidableEq, Repr

/-- `ctl_class(c)` (R87). -/
def ctlClass (c : Byte) : CtlClass :=
  if c = sohCode then .data
  else if c = eotCode then .eot
  else if c = etbCode then .etb
  else if c = canCode then .can
  else .badCtl

/-- The verdict that a control frame's class ends the frame with, none for a data frame (R112). -/
def CtlClass.verdict : CtlClass → Option Verdict
  | .data => Option.none
  | .eot => some .eot
  | .etb => some .etb
  | .can => some .can
  | .badCtl => some .badCtl

/-- `hdr_ok(e, s, k) = (s = e) and (k = cpl(e))` (R88). -/
def hdrOk (e v k : Byte) : Bool := v == e && k == cpl e

/-- `resp_class(r)` (R90). -/
def respClass (r : Byte) : RespClass :=
  if r = ackCode then .ack
  else if r = nakCode then .nak
  else if r = syncCode then .sync
  else .other

/-- `seq_next(s) = (s + 1) mod 256` (R91; conflict C3). -/
def seqNext (v : Byte) : Byte := v + 1

/-- The verdict of a frame whose header matched, by its computed and received CRC (R89, R117). -/
def crcVerdict (computed received : Half) : Verdict :=
  if received = computed then .dataOk else .crcErr

/-- The frame-level reference parser `deframe(e, bs)` (R89): the verdict and the number of bytes the frame occupies;
`none` is INCOMPLETE. -/
def deframe (e : Byte) (bs : List Byte) : Option (Verdict × Nat) :=
  match bs with
  | [] => Option.none
  | c :: _ =>
    match (ctlClass c).verdict with
    | some v => some (v, ctrlFrameLen)
    | Option.none =>
      if bs.length < hdrLen then Option.none
      else if !hdrOk e (bs.getD 1 0) (bs.getD 2 0) then some (.seqErr, hdrLen)
      else if bs.length < frameLen then Option.none
      else
        some (crcVerdict (crc16 ((bs.drop hdrLen).take payloadLen)) (crcUnfield (bs.getD 131 0) (bs.getD 132 0)),
          frameLen)

end Sys2Proof.Machine
end

