-- ==== Sys2Proof/Machine/Flags.lean ====
section
/-! DEFINITION. The fields of STATUS and the error fields' updates (spec 10_state.md R24, R27, R31, R33 to R36;
60_exceptions.md R135, R136). -/

namespace Sys2Proof.Machine

/-- The code of TXST, which is STATUS.TXBUSY (R24, R34). -/
def TxState.code : TxState → Half
  | .idle => 0
  | .pay => 1

/-- The code of RXST (R27). -/
def RxState.code : RxState → Half
  | .idle => 0
  | .ctl => 1
  | .seq => 2
  | .cpl => 3
  | .pay => 4
  | .crcH => 5
  | .crcL => 6

/-- The code of RXV (R31). -/
def Verdict.code : Verdict → Half
  | .none => 0
  | .dataOk => 1
  | .eot => 2
  | .etb => 3
  | .can => 4
  | .badCtl => 5
  | .seqErr => 6
  | .crcErr => 7

/-- The code of RESP (R33). -/
def RespClass.code : RespClass → Half
  | .none => 0
  | .ack => 1
  | .nak => 2
  | .sync => 3
  | .other => 4

/-- The code of ERR (R35). -/
def ErrCode.code : ErrCode → Half
  | .ok => 0
  | .illegal => 1
  | .state => 2
  | .busy => 3
  | .full => 4

/-- ERRS as a bit (R36). -/
def errsCode (b : Bool) : Half := if b then 1 else 0

/-- STATUS (R34): `ERR | (ERRS << 3) | (RXV << 4) | (RXST << 8) | (TXST << 11) | (RESP << 12)`. -/
def State.status (s : State) : Half :=
  s.err.code ||| (errsCode s.errs <<< 3) ||| (s.rxv.code <<< 4) ||| (s.rxst.code <<< 8) ||| (s.txst.code <<< 11)
    ||| (s.resp.code <<< 12)

/-- What a refused command leaves (R135): STATUS.ERR is the code, STATUS.ERRS is set, nothing else changes. -/
def State.withError (code : ErrCode) (s : State) : State := { s with err := code, errs := true }

/-- What a successful command does to the error fields (R136): STATUS.ERR is OK, STATUS.ERRS is unchanged. -/
def State.withOk (s : State) : State := { s with err := .ok }

end Sys2Proof.Machine
end

