-- ==== Sys2Proof/Machine/Ops.lean ====
section
/-! DEFINITION. The named operations over the registers and streams of XMC: emitting, ending a command, refusing one
(the block's only "exception"), resetting the registers, the read port, and what the host presents. -/

namespace Sys2Proof.Machine

/-- `emit(xs)`: append xs, in list order, to TXOUT (00_scope.md R11, 10_state.md R38). -/
def State.emit (xs : List Byte) (s : State) : State := { s with txout := s.txout ++ xs }

/-- `raise CmdError(code)` (60_exceptions.md R135). XMC has no trap entry (R140): the refusal is this state change, and
there is nothing to return from. -/
def raiseCmdError (code : ErrCode) (s : State) : Host.Outcome State Fault Refusal := .next (s.withError code)

/-- A command that passes every check completes its rule and sets STATUS.ERR to OK (R136). -/
def complete (s : State) : Host.Outcome State Fault Refusal := .next s.withOk

/-- The BUSY check (R137): refused while a data frame is being transmitted. -/
def unlessTxBusy (s : State) (done : State) : Host.Outcome State Fault Refusal :=
  match s.txst with
  | .pay => raiseCmdError .busy s
  | .idle => complete done

/-- The STATE check of the framer (R137): refused when no data frame is being transmitted. -/
def ifTxBusy (s : State) (body : Host.Outcome State Fault Refusal) : Host.Outcome State Fault Refusal :=
  match s.txst with
  | .idle => raiseCmdError .state s
  | .pay => body

/-- Every register of 10_state.md R22 at its reset value; TXOUT, and what the host presents, as they are
(44_system.md R130, 70_reset_and_hazards.md R170). -/
def State.resetRegisters (s : State) : State :=
  { State.reset with txout := s.txout, phase := s.phase, inputs := s.inputs }

/-- The register read port `read(i)` for a 4-bit index (20_memory.md R54, 10_state.md R22, R37): 8-bit registers
zero-extended, reserved indices 0x0000. A read changes nothing: it is a function of the state. -/
def State.read (s : State) (i : BitVec 4) : Half :=
  match i.toNat with
  | 0x0 => s.status
  | 0x1 => s.crc
  | 0x2 => s.txcrc
  | 0x3 => zext16 s.txcnt
  | 0x4 => s.rxcrc
  | 0x5 => s.rxrcrc
  | 0x6 => zext16 s.rxcnt
  | 0x7 => zext16 s.rxexp
  | 0x8 => zext16 s.rxctl
  | 0x9 => zext16 s.rxseq
  | 0xA => zext16 s.rxcpl
  | 0xB => zext16 s.respb
  | _ => 0x0000

/-- The reset input takes a new level (R170). Asserting it puts every register at its reset value; when an asserted
input is released every register is at its reset value too; releasing an input that is not asserted does nothing
(DEDUCED, log 3). -/
def State.setResetLine (level : Bool) (s : State) : State :=
  match level, s.phase with
  | true, _ => { s.resetRegisters with phase := .asserted }
  | false, .asserted => { s.resetRegisters with phase := .released }
  | false, .powerOn => s
  | false, .released => s

/-- The host's next input taken off the list (log 1). -/
def State.withInputs (rest : List PortEvent) (s : State) : State := { s with inputs := rest }

/-- The word presented on the command port before anything else the host has presented, with the reset input released,
so that the next step performs it (log 2). -/
def State.presentWord (w : Half) (s : State) : State :=
  { s with inputs := .command w :: s.inputs, phase := .released }

end Sys2Proof.Machine
end

