-- ==== Sys2Proof/Machine/CrcGenerator.lean ====
section
/-! DEFINITION. The CRC generator's commands (spec 40_crc_generator.md R73, R74): legal in every state, and they touch
neither TXCRC nor RXCRC (10_state.md R23). -/

namespace Sys2Proof.Machine

/-- CRC.CLR (R73): `CRC <- 0x0000`. -/
def execCrcClr (s : State) : Host.Outcome State Fault Refusal := complete { s with crc := 0x0000 }

/-- CRC.BYTE b (R74): `CRC <- upd16(CRC, b)`. -/
def execCrcByte (b : Byte) (s : State) : Host.Outcome State Fault Refusal :=
  complete { s with crc := upd16 s.crc b }

end Sys2Proof.Machine
end

