-- ==== Sys2Proof/Machine/RxClassifier.lean ====
section
/-! DEFINITION. The response classifier (spec 43_rx_deframer.md R119). -/

namespace Sys2Proof.Machine

/-- RX.RESP r (R119): keep the byte and its class; legal in every state. -/
def execRxResp (r : Byte) (s : State) : Host.Outcome State Fault Refusal :=
  complete { s with respb := r, resp := respClass r }

end Sys2Proof.Machine
end

