-- ==== Sys2Proof/Machine/RxDeframer.lean ====
section
/-! DEFINITION. The receive deframer (spec 43_rx_deframer.md R110 to R117). -/

namespace Sys2Proof.Machine

/-- RX.START e (R110): arm the deframer for one frame; legal in every state. -/
def execRxStart (e : Byte) (s : State) : Host.Outcome State Fault Refusal :=
  complete
    { s with
      rxexp := e, rxst := .ctl, rxv := .none, rxcnt := 0, rxcrc := 0x0000, rxrcrc := 0x0000,
      rxctl := 0x00, rxseq := 0x00, rxcpl := 0x00 }

/-- State CTL, the first byte of a frame (R112): a control frame ends at this byte. -/
def rxCtl (b : Byte) (s : State) : State :=
  match (ctlClass b).verdict with
  | none => { s with rxctl := b, rxst := .seq }
  | some v => { s with rxctl := b, rxv := v, rxst := .idle }

/-- State SEQ, the sequence byte (R113): no check at this byte. -/
def rxSeq (b : Byte) (s : State) : State := { s with rxseq := b, rxst := .cpl }

/-- State CPL, the complement byte (R114): the header is checked as a whole. -/
def rxCpl (b : Byte) (s : State) : State :=
  if hdrOk s.rxexp s.rxseq b then { s with rxcpl := b, rxst := .pay }
  else { s with rxcpl := b, rxv := .seqErr, rxst := .idle }

/-- State PAY, payload byte number RXCNT (R115): it is not stored (R121). -/
def rxPay (b : Byte) (s : State) : State :=
  { s with
    rxcrc := upd16 s.rxcrc b, rxcnt := s.rxcnt + 1,
    rxst := if s.rxcnt + 1 = payloadLenByte then .crcH else s.rxst }

/-- State CRCH, the CRC field's high byte (R116). -/
def rxCrcH (b : Byte) (s : State) : State := { s with rxrcrc := zext16 b <<< 8, rxst := .crcL }

/-- State CRCL, the CRC field's low byte (R117): the frame ends with DATA_OK or CRCERR. -/
def rxCrcL (b : Byte) (s : State) : State :=
  { s with
    rxrcrc := s.rxrcrc ||| zext16 b, rxv := crcVerdict s.rxcrc (s.rxrcrc ||| zext16 b), rxst := .idle }

/-- RX.BYTE b (R111): STATE when nothing is armed; else the byte means what RXST says. -/
def execRxByte (b : Byte) (s : State) : Host.Outcome State Fault Refusal :=
  match s.rxst with
  | .idle => raiseCmdError .state s
  | .ctl => complete (rxCtl b s)
  | .seq => complete (rxSeq b s)
  | .cpl => complete (rxCpl b s)
  | .pay => complete (rxPay b s)
  | .crcH => complete (rxCrcH b s)
  | .crcL => complete (rxCrcL b s)

end Sys2Proof.Machine
end

