-- ==== Sys2Proof/Machine/System.lean ====
section
/-! DEFINITION. The system command (spec 44_system.md). -/

namespace Sys2Proof.Machine

/-- SYS.RESET (R130): every register to its reset value, ERR and ERRS included; TXOUT keeps every byte. -/
def execSysReset (s : State) : Host.Outcome State Fault Refusal := complete s.resetRegisters

end Sys2Proof.Machine
end

