-- ==== Sys2Proof/Machine/TxControl.lean ====
section
/-! DEFINITION. The transmit framer's control-byte commands (spec 42_tx_framer.md R100 to R106): each emits one byte,
and is refused with BUSY while a data frame is being transmitted. -/

namespace Sys2Proof.Machine

/-- The one shape of the six (section 2 of 42_tx_framer.md): `if TXST = PAY: raise CmdError(BUSY); emit([code])`. -/
def emitControl (code : Byte) (s : State) : Host.Outcome State Fault Refusal :=
  unlessTxBusy s (s.emit [code])

/-- TX.ACK (R100). -/
def execTxAck (s : State) : Host.Outcome State Fault Refusal := emitControl ackCode s

/-- TX.NAK (R101). -/
def execTxNak (s : State) : Host.Outcome State Fault Refusal := emitControl nakCode s

/-- TX.EOT (R102). -/
def execTxEot (s : State) : Host.Outcome State Fault Refusal := emitControl eotCode s

/-- TX.ETB (R103). -/
def execTxEtb (s : State) : Host.Outcome State Fault Refusal := emitControl etbCode s

/-- TX.CAN (R104). -/
def execTxCan (s : State) : Host.Outcome State Fault Refusal := emitControl canCode s

/-- TX.SYNC (R105). -/
def execTxSync (s : State) : Host.Outcome State Fault Refusal := emitControl syncCode s

end Sys2Proof.Machine
end

