-- ==== Sys2Proof/Machine/TxFramer.lean ====
section
/-! DEFINITION. The transmit framer's data frame commands (spec 42_tx_framer.md R95 to R98). -/

namespace Sys2Proof.Machine

/-- TX.SOH s (R96): BUSY while a frame is in progress; else emit the header and start a frame. -/
def execTxSoh (sn : Byte) (s : State) : Host.Outcome State Fault Refusal :=
  unlessTxBusy s (State.emit (hdr sohCode sn) { s with txcrc := 0x0000, txcnt := 0, txst := .pay })

/-- TX.DATA b (R97): STATE with no frame, FULL at 128 payload bytes; else emit b, feed it to TXCRC, count it. -/
def execTxData (b : Byte) (s : State) : Host.Outcome State Fault Refusal :=
  ifTxBusy s
    (if s.txcnt = payloadLenByte then raiseCmdError .full s
     else complete (State.emit [b] { s with txcrc := upd16 s.txcrc b, txcnt := s.txcnt + 1 }))

/-- The loop of R98, `for k in n..127`: TXCRC after the pad bytes of a frame that holds TXCNT payload bytes. -/
def State.paddedTxcrc (s : State) : Half := crcFold s.txcrc (padding s.txcnt.toNat)

/-- TX.END (R98): STATE with no frame; else emit the pad bytes, then the CRC field, and end the frame. -/
def execTxEnd (s : State) : Host.Outcome State Fault Refusal :=
  ifTxBusy s
    (complete
      (State.emit (padding s.txcnt.toNat ++ crcField s.paddedTxcrc)
        { s with txcrc := s.paddedTxcrc, txcnt := payloadLenByte, txst := .idle }))

end Sys2Proof.Machine
end

