-- ==== Sys2Proof/Machine/Dispatch.lean ====
section
/-! DEFINITION. One command performed (spec 30_encoding.md R62): one arm per command, each a call of its meaning. -/

namespace Sys2Proof.Machine

def exec (i : Instr) (s : State) : Host.Outcome State Fault Refusal :=
  match i with
  | .sysReset => Sys2Proof.Machine.execSysReset s
  | .crcClr => Sys2Proof.Machine.execCrcClr s
  | .crcByte b => Sys2Proof.Machine.execCrcByte b s
  | .txSoh sn => Sys2Proof.Machine.execTxSoh sn s
  | .txData b => Sys2Proof.Machine.execTxData b s
  | .txEnd => Sys2Proof.Machine.execTxEnd s
  | .txAck => Sys2Proof.Machine.execTxAck s
  | .txNak => Sys2Proof.Machine.execTxNak s
  | .txEot => Sys2Proof.Machine.execTxEot s
  | .txEtb => Sys2Proof.Machine.execTxEtb s
  | .txCan => Sys2Proof.Machine.execTxCan s
  | .txSync => Sys2Proof.Machine.execTxSync s
  | .rxStart e => Sys2Proof.Machine.execRxStart e s
  | .rxByte b => Sys2Proof.Machine.execRxByte b s
  | .rxResp r => Sys2Proof.Machine.execRxResp r s

end Sys2Proof.Machine
end

