-- ==== Sys2Proof/Machine/CommandPort.lean ====
section
/-! DEFINITION. The command port and the reset input (spec 30_encoding.md R60, R63, R64; 70_reset_and_hazards.md R170,
R171): what the block does with one input of the host. -/

namespace Sys2Proof.Machine

/-- A word performed: a legal word is its command; an illegal word is refused with ILLEGAL, decided from the word alone
before any state check (R64, R138). -/
def performWord (w : Half) (s : State) : Host.Outcome State Fault Refusal :=
  match decode w with
  | .ok i => exec i s
  | .error _ => raiseCmdError .illegal s

/-- One input taken: a command is performed once the first reset is over; while reset is asserted it is not performed
(R170); before the first reset it has no meaning (R171, I4). -/
def takeInput (e : PortEvent) (s : State) : Host.Outcome State Fault Refusal :=
  match e with
  | .resetLine level => .next (s.setResetLine level)
  | .command w =>
    match s.phase with
    | .released => performWord w s
    | .asserted => .next s
    | .powerOn => .refused .beforeFirstReset

/-- One step of the block: with nothing presented it waits (R180); else it takes the oldest input. -/
def stepPort (s : State) : Host.Outcome State Fault Refusal :=
  match s.inputs with
  | [] => .next s
  | e :: rest => takeInput e (s.withInputs rest)

/-- Commands performed in order, each seeing the effects of every earlier one (20_memory.md R56). An erroneous command
does not stop the rest (30_encoding.md R68). -/
def execAll : List Instr → State → Host.Outcome State Fault Refusal
  | [], s => .next s
  | i :: is, s =>
    match exec i s with
    | .next t => execAll is t
    | .fault r => .fault r
    | .refused r => .refused r

end Sys2Proof.Machine
end

