-- ==== Sys2Proof/Machine/Step.lean ====
section
/-! DEFINITION. The step function (spec 00_scope.md R16): one input of the host per step. -/

namespace Sys2Proof.Machine

/-- One step (R15, R16): the oldest input the host has presented is taken, or nothing happens. -/
def step (s : State) : Host.Outcome State Fault Refusal := stepPort s

/-- `s` with the command word `w` (bits from `nbits` up are 0) presented so that the very next step performs it (log 2). -/
def State.withFetchWord (s : State) (nbits w : Nat) : State := s.presentWord (BitVec.ofNat 16 (w % 2 ^ nbits))

end Sys2Proof.Machine
end

