-- ==== Sys2Proof/Config.lean ====
section
/-! DEFINITION. The parameters the spec leaves OPEN (00_scope.md R7, 93_implementation_defined.md I8 to I10, I14).
Each is an uninterpreted constant: nothing can be proved of its value. The parameters the spec fixes are in
Machine/Params.lean. No rule of the block reads any of these; the last three bind only the host. -/

namespace Sys2Proof

/-- `XMC_BASE`: where a platform places the read port on its bus (20_memory.md R55, decision D6, I8). -/
opaque Config.xmcBase : Nat

/-- `CANCEL_PAUSE`: how long the receiver's host pauses after a cancellation, a duration of 0 or more
(60_exceptions.md R156, decision D37, I9). Its unit is the reader's. -/
opaque Config.cancelPause : Nat

/-- Whether the receiver's host waits one backoff after the third mismatch before it fails: `any value` (I10, N13). -/
opaque Config.backoffAfterLastMismatch : Bool

/-- Whether the sender's host sends one all-pad frame for an empty source file: `any value` (I14, N7). -/
opaque Config.emptyFileSendsFrame : Bool

end Sys2Proof
end

