-- ==== Sys2Proof/Machine/Assembler.lean ====
section
/-! DEFINITION. The assembler's view of the commands (spec 30_encoding.md R67, R68): pseudo-instructions and their
expansions, and one source line. It works on lists of characters. What R67 does not say of spacing and of the digits
of a literal is chosen here (DESIGN CHOICE, log 11). -/

namespace Sys2Proof.Machine

/-- Why a line is an assembly error (R67, R68). -/
inductive AsmError where
  | badSyntax          -- the text is no list of a mnemonic and its arguments
  | unknownMnemonic
  | unexpectedArgument -- a zero-ARG mnemonic written with an argument
  | missingArgument    -- an operand mnemonic without one
  | badLiteral         -- no hexadecimal, decimal or character literal
  | outOfRange         -- a literal outside 0..255
  | chunkTooLong       -- TX.PACKET with more than 128 payload bytes
  | noBytes            -- RX.FEED or RX.FRAME with no byte
  | noSuchControl      -- TX.CTRL of a byte that is no control code of R68
  deriving DecidableEq, Repr

/-- The pseudo-instructions of R68. -/
inductive Pseudo where
  | crcBlock (bs : List Byte)
  | txPacket (sn : Byte) (bs : List Byte)
  | rxFeed (bs : List Byte)
  | rxFrame (e : Byte) (bs : List Byte)
  | txCtrl (x : Byte)
  deriving DecidableEq, Repr

/-- `CRC.CLR; CRC.BYTE b0; ...` (R68). -/
def crcBlockCommands (bs : List Byte) : List Instr := .crcClr :: bs.map .crcByte

/-- `TX.SOH s; TX.DATA b0; ...; TX.END` (R68). -/
def txPacketCommands (sn : Byte) (bs : List Byte) : List Instr := .txSoh sn :: (bs.map .txData ++ [.txEnd])

/-- `RX.BYTE b0; ...` (R68). -/
def rxFeedCommands (bs : List Byte) : List Instr := bs.map .rxByte

/-- `RX.START e; RX.BYTE b0; ...` (R68). -/
def rxFrameCommands (e : Byte) (bs : List Byte) : List Instr := .rxStart e :: rxFeedCommands bs

/-- The command that emits a control code, where there is one (R68, `TX.CTRL x`). -/
def txCtrlCommand (x : Byte) : Option Instr :=
  if x = ackCode then some .txAck
  else if x = nakCode then some .txNak
  else if x = eotCode then some .txEot
  else if x = etbCode then some .txEtb
  else if x = canCode then some .txCan
  else if x = syncCode then some .txSync
  else none

/-- The expansion of a pseudo-instruction, under the condition column of R68. -/
def Pseudo.expand : Pseudo → Except AsmError (List Instr)
  | .crcBlock bs => .ok (crcBlockCommands bs)
  | .txPacket sn bs => if bs.length ≤ payloadLen then .ok (txPacketCommands sn bs) else .error .chunkTooLong
  | .rxFeed bs => if bs = [] then .error .noBytes else .ok (rxFeedCommands bs)
  | .rxFrame e bs => if bs = [] then .error .noBytes else .ok (rxFrameCommands e bs)
  | .txCtrl x =>
    match txCtrlCommand x with
    | some i => .ok [i]
    | none => .error .noSuchControl

/-- The tokens of a line: a run of characters, a character literal, a comma. -/
inductive Token where
  | word (cs : List Char)
  | chr (c : Char)
  | comma
  deriving DecidableEq, Repr

/-- A run of characters gathered so far (backwards), put before the tokens that follow. -/
def flushWord (acc : List Char) (ts : List Token) : List Token :=
  match acc with
  | [] => ts
  | _ :: _ => .word acc.reverse :: ts

/-- The tokens of a line; a comment runs from `;` to the end of the line, a character literal may hold any character.
R67 writes `MNEMONIC arg`; that no space is needed before a character literal or a comment, or beside a comma, is the
model's choice (DESIGN CHOICE, log 11). -/
def tokens : List Char → List Char → Except AsmError (List Token)
  | [], acc => .ok (flushWord acc [])
  | '\'' :: c :: '\'' :: rest, acc =>
    match tokens rest [] with
    | .ok ts => .ok (flushWord acc (.chr c :: ts))
    | .error e => .error e
  | c :: rest, acc =>
    if c = ';' then .ok (flushWord acc [])
    else if c = ' ' ∨ c = '\t' ∨ c = ',' then
      match tokens rest [] with
      | .ok ts => .ok (flushWord acc (if c = ',' then .comma :: ts else ts))
      | .error e => .error e
    else if c = '\'' then .error .badSyntax
    else tokens rest (c :: acc)

/-- The value of a hexadecimal digit. -/
def hexDigit (c : Char) : Option Nat :=
  let n := c.toNat
  if 48 ≤ n ∧ n ≤ 57 then some (n - 48)
  else if 65 ≤ n ∧ n ≤ 70 then some (n - 55)
  else if 97 ≤ n ∧ n ≤ 102 then some (n - 87)
  else none

/-- The value of a list of digits in a base, from the value `v` of the digits before them. -/
def digitsValue (base : Nat) : List Char → Nat → Option Nat
  | [], v => some v
  | c :: cs, v =>
    match hexDigit c with
    | some d => if d < base then digitsValue base cs (base * v + d) else none
    | none => none

/-- The value of a literal `0xHH` or a decimal literal (R67). -/
def numberValue (cs : List Char) : Option Nat :=
  match cs with
  | [] => none
  | '0' :: 'x' :: [] => none
  | '0' :: 'x' :: ds => digitsValue 16 ds 0
  | ds => digitsValue 10 ds 0

/-- The byte an argument stands for (R67): a number 0..255, or the ASCII code of a printable character. -/
def argByte (t : Token) : Except AsmError Byte :=
  match t with
  | .comma => .error .badSyntax
  | .chr c => if 32 ≤ c.toNat ∧ c.toNat ≤ 126 then .ok (BitVec.ofNat 8 c.toNat) else .error .badLiteral
  | .word cs =>
    match numberValue cs with
    | none => .error .badLiteral
    | some v => if v ≤ 255 then .ok (BitVec.ofNat 8 v) else .error .outOfRange

/-- The arguments of a line, separated by commas. -/
def argBytes : List Token → Except AsmError (List Byte)
  | [] => .ok []
  | t :: ts =>
    match argByte t with
    | .error e => .error e
    | .ok b =>
      match ts with
      | [] => .ok [b]
      | .comma :: u :: us =>
        match argBytes (u :: us) with
        | .ok bs => .ok (b :: bs)
        | .error e => .error e
      | _ => .error .badSyntax

/-- A zero-ARG command: written with an argument it is an assembly error (R67). -/
def zeroArgLine (i : Instr) (args : List Byte) : Except AsmError (List Instr) :=
  match args with
  | [] => .ok [i]
  | _ :: _ => .error .unexpectedArgument

/-- An operand command: written without its argument it is an assembly error (R67). -/
def operandLine (i : Byte → Instr) (args : List Byte) : Except AsmError (List Instr) :=
  match args with
  | [] => .error .missingArgument
  | [b] => .ok [i b]
  | _ :: _ :: _ => .error .unexpectedArgument

/-- A pseudo-instruction whose first argument is an operand of its own. -/
def pseudoLine (p : Byte → List Byte → Pseudo) (args : List Byte) : Except AsmError (List Instr) :=
  match args with
  | [] => .error .missingArgument
  | b :: bs => (p b bs).expand

/-- A mnemonic of R62 or R68, in capitals, with its arguments. -/
def mnemonicLine (mnemonic : String) (args : List Byte) : Except AsmError (List Instr) :=
  if mnemonic = "SYS.RESET" then zeroArgLine .sysReset args
  else if mnemonic = "CRC.CLR" then zeroArgLine .crcClr args
  else if mnemonic = "CRC.BYTE" then operandLine .crcByte args
  else if mnemonic = "TX.SOH" then operandLine .txSoh args
  else if mnemonic = "TX.DATA" then operandLine .txData args
  else if mnemonic = "TX.END" then zeroArgLine .txEnd args
  else if mnemonic = "TX.ACK" then zeroArgLine .txAck args
  else if mnemonic = "TX.NAK" then zeroArgLine .txNak args
  else if mnemonic = "TX.EOT" then zeroArgLine .txEot args
  else if mnemonic = "TX.ETB" then zeroArgLine .txEtb args
  else if mnemonic = "TX.CAN" then zeroArgLine .txCan args
  else if mnemonic = "TX.SYNC" then zeroArgLine .txSync args
  else if mnemonic = "RX.START" then operandLine .rxStart args
  else if mnemonic = "RX.BYTE" then operandLine .rxByte args
  else if mnemonic = "RX.RESP" then operandLine .rxResp args
  else if mnemonic = "CRC.BLOCK" then (Pseudo.crcBlock args).expand
  else if mnemonic = "TX.PACKET" then pseudoLine .txPacket args
  else if mnemonic = "RX.FEED" then (Pseudo.rxFeed args).expand
  else if mnemonic = "RX.FRAME" then pseudoLine .rxFrame args
  else if mnemonic = "TX.CTRL" then
    match args with
    | [] => .error .missingArgument
    | [x] => (Pseudo.txCtrl x).expand
    | _ :: _ :: _ => .error .unexpectedArgument
  else .error .unknownMnemonic

/-- One source line (R67): no command, one command, or the expansion of one pseudo-instruction. Mnemonics are matched
without regard to letter case (R67); that the names of pseudo-instructions are too is the model's choice (DESIGN CHOICE,
log 11). -/
def assembleLine (line : List Char) : Except AsmError (List Instr) :=
  match tokens line [] with
  | .error e => .error e
  | .ok [] => .ok []
  | .ok (.word cs :: ts) =>
    match argBytes ts with
    | .error e => .error e
    | .ok args => mnemonicLine (String.ofList (cs.map Char.toUpper)) args
  | .ok (.chr _ :: _) => .error .badSyntax
  | .ok (.comma :: _) => .error .badSyntax

/-- A program: its lines in order (R67). -/
def assemble : List (List Char) → Except AsmError (List Instr)
  | [] => .ok []
  | line :: rest =>
    match assembleLine line with
    | .error e => .error e
    | .ok is =>
      match assemble rest with
      | .error e => .error e
      | .ok more => .ok (is ++ more)

end Sys2Proof.Machine
end

