-- ==== Sys2Proof/Machine/HostContract.lean ====
section
/-! DEFINITION. What the host does with the block and the transport, as far as both of its roles share it (spec
60_exceptions.md R147 to R161). The rules bind the host, not the block: no meaning and no step reads any of this. The
sender is in HostSender.lean, the receiver in HostReceiver.lean (log 12). -/

namespace Sys2Proof.Machine

/-- What the host does: a command to the block, a flush of the transport (R157), a wait of some seconds (BACKOFF), the
pause of a cancellation (CANCEL_PAUSE). -/
inductive HostAction where
  | command (i : Instr)
  | flush
  | wait (seconds : Nat)
  | pause (duration : Nat)
  deriving DecidableEq, Repr

/-- A part of a transfer: what the host does, how it ends (`none`: the host waits for a byte that has not come, R159), and
the bytes not yet read. The bytes of a run are those the host's reads deliver, in order: which bytes a flush discards is
the transport's (log 12). -/
structure HostRun (α : Type) where
  actions : List HostAction
  result  : Option α
  rest    : List Byte
  deriving DecidableEq, Repr

/-- Commands as the host's actions. -/
def commandActions (is : List Instr) : List HostAction := is.map .command

/-- Actions taken before a run. -/
def HostRun.after {α : Type} (as : List HostAction) (r : HostRun α) : HostRun α := { r with actions := as ++ r.actions }

/-- A run, and what follows it once it has ended. -/
def HostRun.andThen {α β : Type} (r : HostRun α) (f : α → List Byte → HostRun β) : HostRun β :=
  match r.result with
  | none => { actions := r.actions, result := none, rest := r.rest }
  | some a => (f a r.rest).after r.actions

/-- The payload of a frame (R121): the bytes the host presented while RXST was PAY, in presentation order. `states` are
the deframer states in which `bytes` were presented. -/
def payloadPresented : List RxState → List Byte → List Byte
  | .pay :: ss, b :: bs => b :: payloadPresented ss bs
  | _ :: ss, _ :: bs => payloadPresented ss bs
  | [], _ => []
  | _ :: _, [] => []

end Sys2Proof.Machine
end

