-- ==== Sys2Proof/Machine/HostReceiver.lean ====
section
/-! DEFINITION. The receiver's host (spec 60_exceptions.md R149, R153 to R156, R158 to R160; log 12). -/

namespace Sys2Proof.Machine

/-- The received file of accepted chunks: every payload whole, padding included (R160). -/
def receivedContent (chunks : List (List Byte)) : List Byte := (chunks.map pad).flatten

/-- What the receiver's host holds while it waits for a packet: the sequence number it expects (R149) and the mismatches
counted for it (R155). -/
structure Expecting where
  sn    : Byte
  retry : Nat
  deriving DecidableEq, Repr

/-- A new sequence number is expected: the retry counter is "reset each time a new sequence number is expected" (R155). -/
def expectNew (sn : Byte) : Expecting := { sn, retry := 0 }

/-- What the receiver's host does next about one packet (R154). -/
inductive ReceiverMove where
  | accept (next : Expecting)                        -- return the 128 payload bytes; the sequence advances (R149)
  | sameSequence (same : Expecting)                  -- re-arm with the same expected sequence, no retry counted
  | transferComplete                                 -- return COMPLETE, zero bytes
  | cancelled                                        -- R156: restart the whole receive session
  | retryAfter (seconds : Nat) (same : Expecting)    -- wait, then re-arm with the same expected sequence
  | fail (backoffFirst : Bool)                       -- ProtocolError: the retry budget is used up (R155)
  deriving DecidableEq, Repr

/-- The receiver's reply to a mismatch (R154, R155; one counter for both kinds of mismatch, conflict C6). Whether a backoff
comes before the failure is open (I10). -/
def mismatchReply (e : Expecting) : List Instr × ReceiverMove :=
  ([.txNak],
    if e.retry + 1 = maxRetry then .fail Config.backoffAfterLastMismatch
    else .retryAfter backoffSeconds { e with retry := e.retry + 1 })

/-- The commands the receiver's host issues on a verdict, and its next move (R120, R154); the counter and the sequence
advance with it (R149, R155). `none` while the frame is in progress. -/
def receiverReply (v : Verdict) (e : Expecting) : Option (List Instr × ReceiverMove) :=
  match v with
  | .none => none
  | .dataOk => some ([.txAck], .accept (expectNew (seqNext e.sn)))
  | .eot => some ([.txAck], .sameSequence e)
  | .etb => some ([.txAck], .transferComplete)
  | .can => some ([], .cancelled)
  | .badCtl => some ([], .cancelled)
  | .seqErr => some (mismatchReply e)
  | .crcErr => some (mismatchReply e)

/-- How `receivePacket` of the source ends (R154). -/
inductive PacketResult where
  | payload (bytes : List Byte) (next : Expecting)
  | complete
  | cancelled
  | protocolError (backoffFirst : Bool)
  deriving DecidableEq, Repr

/-- What the host does on a reply: its commands, then the backoff where there is one (R154). -/
def replyActions (is : List Instr) (m : ReceiverMove) : List HostAction :=
  commandActions is ++
    match m with
    | .accept _ => []
    | .sameSequence _ => []
    | .transferComplete => []
    | .cancelled => []
    | .retryAfter seconds _ => [.wait seconds]
    | .fail backoffFirst => if backoffFirst then [.wait backoffSeconds] else []

/-- The loop of R154 over the bytes the transport delivers: the block is armed, fed until the frame ends, and the reply to
its verdict follows; bytes after a frame's end stay for the next one (R178). `fuel` bounds the number of frames. -/
def receivePacketFuel : Nat → Expecting → List Byte → HostRun PacketResult
  | 0, _, bs => { actions := [], result := none, rest := bs }
  | fuel + 1, e, bs =>
    match deframe e.sn bs with
    | none => { actions := commandActions (rxFrameCommands e.sn bs), result := none, rest := [] }
    | some (v, k) =>
      let fed := commandActions (rxFrameCommands e.sn (bs.take k))
      let rest := bs.drop k
      match receiverReply v e with
      | none => { actions := fed, result := none, rest }
      | some (is, m) =>
        let sent := fed ++ replyActions is m
        match m with
        | .accept next =>
          { actions := sent, result := some (.payload ((bs.drop hdrLen).take payloadLen) next), rest }
        | .sameSequence same => (receivePacketFuel fuel same rest).after sent
        | .retryAfter _ same => (receivePacketFuel fuel same rest).after sent
        | .transferComplete => { actions := sent, result := some .complete, rest }
        | .cancelled => { actions := sent, result := some .cancelled, rest }
        | .fail backoff => { actions := sent, result := some (.protocolError backoff), rest }

/-- R154. Every frame takes at least one byte, so the fuel is always enough. -/
def receivePacket (e : Expecting) (bs : List Byte) : HostRun PacketResult := receivePacketFuel (bs.length + 1) e bs

/-- A cancelled receive session starts over (R156, conflict C5): the output file empty, the pause, the transport flushed,
then the handshake from its beginning, with its first command and the sequence expected. -/
structure SessionRestart where
  file     : List Byte
  pause    : Nat
  flush    : Bool
  commands : List Instr
  expects  : Expecting
  deriving DecidableEq, Repr

/-- R156. The block needs no reset for it. -/
def sessionRestart : SessionRestart :=
  { file := [], pause := Config.cancelPause, flush := true, commands := [.txSync], expects := expectNew seqInit }

/-- What the receiver's host does in its synchronisation loop (R153). -/
inductive SyncMove where
  | steady (bytes : List Byte) (next : Expecting)             -- write the first payload, go on with sequence 2
  | syncAgain (is : List Instr) (seconds : Nat) (expects : Expecting) -- send TX.SYNC again, wait so long for a packet
  | restart (r : SessionRestart)                              -- the first packet was cancelled (R156)
  | fail                                                      -- ProtocolError, fatal (D38)
  deriving DecidableEq, Repr

/-- One round of the loop of R153, and its first: TX.SYNC, the wait, the first packet expected with SEQ_INIT. -/
def syncRound : SyncMove := .syncAgain [.txSync] syncTimeoutSeconds (expectNew seqInit)

/-- What follows a round of R153: `none` is the timeout. A ProtocolError of the first packet is fatal; every other outcome
without a full payload sends TX.SYNC again (decision D38, I11), a cancelled one as the start of the session that R156
begins anew (log 12). -/
def syncMove (first : Option PacketResult) : SyncMove :=
  match first with
  | none => syncRound
  | some (.payload bytes next) => .steady bytes next
  | some .complete => syncRound
  | some .cancelled => .restart sessionRestart
  | some (.protocolError _) => .fail

/-- What the receiver's host does in the steady state (R153). -/
inductive SteadyMove where
  | write (bytes : List Byte) (next : Expecting)   -- write the accepted payload, receive the next sequence
  | finished                                       -- the "transfer complete" sentinel
  | restart (r : SessionRestart)                   -- R156
  | fail                                           -- ProtocolError
  deriving DecidableEq, Repr

/-- R153: only an accepted packet goes on; every other result ends the loop. -/
def steadyMove (r : PacketResult) : SteadyMove :=
  match r with
  | .payload bytes next => .write bytes next
  | .complete => .finished
  | .cancelled => .restart sessionRestart
  | .protocolError _ => .fail

/-- How one receive session ends: the file written, a restart for the outer loop to perform (R156) with the sync timeouts of
the handshakes to come, a ProtocolError. -/
inductive SessionResult where
  | finished (file : List Byte)
  | restart (r : SessionRestart) (timeouts : List Nat)
  | protocolError
  deriving DecidableEq, Repr

/-- The steady state (R153), with the file written so far. -/
def receiveSteadyFuel : Nat → Expecting → List Byte → List Nat → List Byte → HostRun SessionResult
  | 0, _, _, _, bs => { actions := [], result := none, rest := bs }
  | fuel + 1, e, file, timeouts, bs =>
    (receivePacket e bs).andThen fun r rest =>
      match steadyMove r with
      | .write bytes next => receiveSteadyFuel fuel next (file ++ bytes) timeouts rest
      | .finished => { actions := [], result := some (.finished file), rest }
      | .restart re => { actions := [], result := some (.restart re timeouts), rest }
      | .fail => { actions := [], result := some .protocolError, rest }

/-- R153: a packet that has ended took at least one byte, so the fuel is always enough. -/
def receiveSteady (e : Expecting) (file : List Byte) (timeouts : List Nat) (bs : List Byte) : HostRun SessionResult :=
  receiveSteadyFuel (bs.length + 1) e file timeouts bs

/-- The sync requests of one round of R153: TX.SYNC, and once more after each of `n` times SYNC_TIMEOUT runs out. -/
def syncActions : Nat → List HostAction
  | 0 => [.command .txSync]
  | n + 1 => .command .txSync :: .wait syncTimeoutSeconds :: syncActions n

/-- One receive session from its handshake on (R153): the sync requests of this round and, only if a byte is ready, the
first packet, then the steady state or the next round. `timeouts` says for each round to come how often SYNC_TIMEOUT runs
out in it; a round it does not name has none. -/
def receiveSessionFuel : Nat → List Nat → List Byte → HostRun SessionResult
  | 0, _, bs => { actions := [], result := none, rest := bs }
  | _ + 1, timeouts, [] => { actions := syncActions (timeouts.headD 0), result := none, rest := [] }
  | fuel + 1, timeouts, b :: bs =>
    ((receivePacket (expectNew seqInit) (b :: bs)).andThen fun r rest =>
      match syncMove (some r) with
      | .steady bytes next => receiveSteady next bytes timeouts.tail rest
      | .syncAgain _ _ _ => receiveSessionFuel fuel timeouts.tail rest
      | .restart re => { actions := [], result := some (.restart re timeouts.tail), rest }
      | .fail => { actions := [], result := some .protocolError, rest }).after (syncActions (timeouts.headD 0))

/-- R153. -/
def receiveSession (timeouts : List Nat) (bs : List Byte) : HostRun SessionResult :=
  receiveSessionFuel (bs.length + 1) timeouts bs

/-- How a receive ends (R158). -/
inductive ReceiveResult where
  | received (file : List Byte)
  | protocolError
  | fileError
  deriving DecidableEq, Repr

/-- What a restart does before the session begins again (R156). -/
def restartActions (r : SessionRestart) : List HostAction := [.pause r.pause] ++ if r.flush then [.flush] else []

/-- The outer driving loop of R156 (conflict C5): sessions, until one ends otherwise than by a cancellation. -/
def receiveSessions : Nat → List Nat → List Byte → HostRun ReceiveResult
  | 0, _, bs => { actions := [], result := none, rest := bs }
  | fuel + 1, timeouts, bs =>
    (receiveSession timeouts bs).andThen fun r rest =>
      match r with
      | .finished file => { actions := [], result := some (.received file), rest }
      | .restart re later => (receiveSessions fuel later rest).after (restartActions re)
      | .protocolError => { actions := [], result := some .protocolError, rest }

/-- The receiver's procedure (R153 to R156): `opened` says whether the destination file could be opened, `timeouts` how
often SYNC_TIMEOUT runs out in each round of a handshake, first to last, and `bs` are the bytes read. -/
def receiveFile (opened : Bool) (timeouts : List Nat) (bs : List Byte) : HostRun ReceiveResult :=
  if opened then receiveSessions (bs.length + 1) timeouts bs
  else { actions := [], result := some .fileError, rest := bs }

end Sys2Proof.Machine
end

