-- ==== Sys2Proof/Machine/HostSender.lean ====
section
/-! DEFINITION. The sender's host (spec 60_exceptions.md R149 to R152, R158, R159, R161; log 12). -/

namespace Sys2Proof.Machine

/-- The chunks of a file: successive pieces of 128 bytes, only the last may be short (R151). `fuel` bounds the number of
pieces; the file's length is always enough. -/
def chunksFuel : Nat → List Byte → List (List Byte)
  | _, [] => []
  | 0, _ => []
  | fuel + 1, x :: xs => (x :: xs).take payloadLen :: chunksFuel fuel ((x :: xs).drop payloadLen)

/-- The chunks the sender's host sends for a file; an empty file is open (I14, N7). -/
def senderChunks (file : List Byte) : List (List Byte) :=
  match file with
  | [] => if Config.emptyFileSendsFrame then [[]] else []
  | x :: xs => chunksFuel (x :: xs).length (x :: xs)

/-- Before the first chunk (R150): the byte read in place of the sync request, if one was read, is classified (R159), then
the transport is flushed. Whatever its class, the transfer goes on (I1). -/
def senderStart (first : Option Byte) : List HostAction :=
  match first with
  | none => [.flush]
  | some r => [.command (.rxResp r), .flush]

/-- What the sender's host does after the response to a data frame (R151): only ACK goes on, to the next sequence (R149);
anything else sends the same packet again, without bound, after some actions. -/
inductive SenderMove where
  | nextChunk (sn : Byte)
  | sendAgain (before : List HostAction)
  deriving DecidableEq, Repr

/-- R151: NAK or any other response flushes the transport and retries. -/
def senderMove (sn : Byte) (r : RespClass) : SenderMove :=
  if r = .ack then .nextChunk (seqNext sn) else .sendAgain [.flush]

/-- The loop of R151 for one chunk: TX.PACKET, one byte read, RX.RESP, until ACK. It ends with the next sequence. -/
def sendPacket (sn : Byte) (xs : List Byte) : List Byte → HostRun Byte
  | [] => { actions := commandActions (txPacketCommands sn xs), result := none, rest := [] }
  | r :: rs =>
    let sent := commandActions (txPacketCommands sn xs ++ [.rxResp r])
    match senderMove sn (respClass r) with
    | .nextChunk next => { actions := sent, result := some next, rest := rs }
    | .sendAgain before => (sendPacket sn xs rs).after (sent ++ before)

/-- The chunks one after another, each acknowledged before the next (R151, R161). -/
def sendChunks : Byte → List (List Byte) → List Byte → HostRun Byte
  | sn, [], rs => { actions := [], result := some sn, rest := rs }
  | sn, xs :: more, rs => (sendPacket sn xs rs).andThen fun next rest => sendChunks next more rest

/-- How a send ends (R158). -/
inductive SendResult where
  | sent
  | protocolError
  | fileError
  deriving DecidableEq, Repr

/-- After EOT, and after ETB, the send goes on only on ACK (R152). -/
def senderEndGoesOn (r : RespClass) : Bool := r == .ack

/-- A control byte that must be acknowledged, else the whole send fails and is not retried (R152). -/
def sendControl (i : Instr) : List Byte → HostRun SendResult
  | [] => { actions := commandActions [i], result := none, rest := [] }
  | r :: rs =>
    { actions := commandActions [i, .rxResp r],
      result := some (if senderEndGoesOn (respClass r) then .sent else .protocolError), rest := rs }

/-- The end of a send (R152): TX.EOT, and only on its ACK TX.ETB. -/
def sendEnd (rs : List Byte) : HostRun SendResult :=
  (sendControl .txEot rs).andThen fun result rest =>
    match result with
    | .sent => sendControl .txEtb rest
    | .protocolError => { actions := [], result := some .protocolError, rest }
    | .fileError => { actions := [], result := some .fileError, rest }

/-- The sender's procedure (R150 to R152): `file` is `none` if the source file cannot be opened, `first` is the byte read
before the first packet, `rs` are the bytes read after it. -/
def sendFile (file : Option (List Byte)) (first : Option Byte) (rs : List Byte) : HostRun SendResult :=
  match file with
  | none => { actions := [], result := some .fileError, rest := rs }
  | some content =>
    ((sendChunks seqInit (senderChunks content) rs).andThen fun _ rest => sendEnd rest).after (senderStart first)

end Sys2Proof.Machine
end

