-- ==== Sys2Proof/Safety.lean ====
section
/-! DEFINITION. What the spec promises of every reachable state (spec 10_state.md R25, R40; 70_reset_and_hazards.md
R170): the invariants the statements about runs use. -/

namespace Sys2Proof.Machine

/-- Both counters are at most 128 (R40). -/
abbrev State.CountersInRange (s : State) : Prop := s.txcnt ≤ 128#8 ∧ s.rxcnt ≤ 128#8

/-- What RXST says of RXCNT and RXV (R40). -/
abbrev State.DeframerConsistent (s : State) : Prop :=
  (s.rxst = .pay → s.rxcnt < 128#8) ∧
  (s.rxst = .crcH ∨ s.rxst = .crcL → s.rxcnt = 128#8) ∧
  (s.rxst = .ctl ∨ s.rxst = .seq ∨ s.rxst = .cpl → s.rxcnt = 0#8) ∧
  (s.rxst = .idle → s.rxcnt = 0#8 ∨ s.rxcnt = 128#8) ∧
  (s.rxst = .idle → (s.rxcnt = 128#8 ↔ s.rxv = .dataOk ∨ s.rxv = .crcErr)) ∧
  (s.rxst ≠ .idle → s.rxv = .none)

/-- What TXST says of TXCNT (R40). -/
abbrev State.FramerConsistent (s : State) : Prop := s.txst = .idle ∧ s.txcnt ≠ 0#8 → s.txcnt = 128#8

/-- A recorded error is remembered by the sticky flag (R40: ERR = 0 or ERRS = 1). -/
abbrev State.ErrorsRemembered (s : State) : Prop := s.err = .ok ∨ s.errs = true

/-- The invariants of R40. Its bounds on the codes (RXST ≠ 7, RXV ≤ 7, RESP ≤ 4, ERR ≤ 4) hold of the enumerations. -/
abbrev State.Inv (s : State) : Prop :=
  s.CountersInRange ∧ s.DeframerConsistent ∧ s.FramerConsistent ∧ s.ErrorsRemembered

/-- While a data frame is being transmitted, TXOUT ends with its header and the payload bytes emitted so far, TXCNT
counts them, and TXCRC is their CRC (R25, R26, R48). -/
abbrev State.FrameOnWire (s : State) : Prop :=
  s.txst = .pay →
    ∃ (before : List Byte) (sn : Byte) (payload : List Byte),
      s.txout = before ++ hdr sohCode sn ++ payload ∧ payload.length = s.txcnt.toNat ∧ s.txcrc = crc16 payload

/-- While the reset input is asserted every register is at its reset value (R170). -/
abbrev State.HeldInReset (s : State) : Prop := s.phase = .asserted → s = { s.resetRegisters with phase := .asserted }

/-- The first reset is over: the step refuses nothing (R171, R174). -/
abbrev State.Ready (s : State) : Prop := s.phase ≠ .powerOn

end Sys2Proof.Machine
end

