-- ==== Sys2Proof/Certificates/Slice0/Obligations.lean ====
section
/-! DEFINITION. The statements for the provers: `def Obligations.<Name> : Prop`, listed in OBLIGATIONS.json. Each
docstring names the rules of spec/ the statement formalises. The helpers in `Sys2Proof.Claims` only abbreviate. -/

namespace Sys2Proof.Claims

open Sys2Proof.Machine

/-- `s` with only the error fields of a refused command changed (60_exceptions.md R135). -/
def refusedWith (code : ErrCode) (s : State) : State := { s with err := code, errs := true }

/-- A zero-ARG command of 30_encoding.md R62: its word decodes to it, and with ARG ≠ 0x00 the word is refused as ILLEGAL
and changes nothing else (R64). -/
def ZeroArgEncoding (op : Byte) (i : Instr) : Prop :=
  decode (op ++ 0x00#8) = .ok i ∧
  ∀ (arg : Byte) (s : State), arg ≠ 0x00#8 → performWord (op ++ arg) s = .next (refusedWith .illegal s)

/-- An operand command of R62: legal with every ARG. -/
def OperandEncoding (op : Byte) (i : Byte → Instr) : Prop := ∀ arg : Byte, decode (op ++ arg) = .ok (i arg)

/-- The illegal words as 30_encoding.md R64 lists them. -/
def IllegalWord (w : Half) : Prop :=
  let op := (w.extractLsb' 8 8).toNat
  let arg := (w.extractLsb' 0 8).toNat
  (op = 0x00 ∨ (0x02 ≤ op ∧ op ≤ 0x0F) ∨ (0x12 ≤ op ∧ op ≤ 0x1F) ∨ (0x23 ≤ op ∧ op ≤ 0x2F) ∨
    (0x36 ≤ op ∧ op ≤ 0x3F) ∨ (0x43 ≤ op ∧ op ≤ 0xFF)) ∨
  ((op = 0x01 ∨ op = 0x10 ∨ op = 0x22 ∨ (0x30 ≤ op ∧ op ≤ 0x35)) ∧ arg ≠ 0)

/-- The state whose every register is at the reset value of 10_state.md R22, written out. -/
def zeroed (txout : List Byte) (phase : ResetPhase) (inputs : List PortEvent) : State where
  crc := 0x0000
  txcrc := 0x0000
  txcnt := 0x00
  rxcrc := 0x0000
  rxrcrc := 0x0000
  rxcnt := 0x00
  rxexp := 0x00
  rxctl := 0x00
  rxseq := 0x00
  rxcpl := 0x00
  respb := 0x00
  txst := .idle
  rxst := .idle
  rxv := .none
  resp := .none
  err := .ok
  errs := false
  txout := txout
  phase := phase
  inputs := inputs

/-- The six control-byte commands with the code each emits (42_tx_framer.md R100 to R105). -/
def controlCommands : List (Instr × Byte × Byte) :=
  [(.txAck, 0x30, 0x06), (.txNak, 0x31, 0x15), (.txEot, 0x32, 0x04), (.txEtb, 0x33, 0x17), (.txCan, 0x34, 0x18),
   (.txSync, 0x35, 0x43)]

/-- The CRC generator's commands. -/
def isCrcCommand : Instr → Bool
  | .crcClr => true
  | .crcByte _ => true
  | _ => false

/-- The transmit framer's commands. -/
def isTxCommand : Instr → Bool
  | .txSoh _ => true
  | .txData _ => true
  | .txEnd => true
  | .txAck => true
  | .txNak => true
  | .txEot => true
  | .txEtb => true
  | .txCan => true
  | .txSync => true
  | _ => false

/-- The deframer's commands. -/
def isRxCommand : Instr → Bool
  | .rxStart _ => true
  | .rxByte _ => true
  | _ => false

/-- The classifier's command. -/
def isRespCommand : Instr → Bool
  | .rxResp _ => true
  | _ => false

/-- The framer's registers and stream. -/
def txView (s : State) : TxState × Half × Byte × List Byte := (s.txst, s.txcrc, s.txcnt, s.txout)

/-- The deframer's registers. -/
def rxView (s : State) : RxState × Verdict × Byte × Byte × Byte × Byte × Byte × Half × Half :=
  (s.rxst, s.rxv, s.rxexp, s.rxctl, s.rxseq, s.rxcpl, s.rxcnt, s.rxcrc, s.rxrcrc)

/-- The classifier's registers. -/
def respView (s : State) : Byte × RespClass := (s.respb, s.resp)

/-- The codes of STATUS.ERR (10_state.md R35). -/
def errBits : ErrCode → BitVec 3
  | .ok => 0
  | .illegal => 1
  | .state => 2
  | .busy => 3
  | .full => 4

/-- The codes of STATUS.RXV (R31). -/
def rxvBits : Verdict → BitVec 4
  | .none => 0
  | .dataOk => 1
  | .eot => 2
  | .etb => 3
  | .can => 4
  | .badCtl => 5
  | .seqErr => 6
  | .crcErr => 7

/-- The codes of STATUS.RXST (R27). -/
def rxstBits : RxState → BitVec 3
  | .idle => 0
  | .ctl => 1
  | .seq => 2
  | .cpl => 3
  | .pay => 4
  | .crcH => 5
  | .crcL => 6

/-- The codes of STATUS.RESP (R33). -/
def respBits : RespClass → BitVec 3
  | .none => 0
  | .ack => 1
  | .nak => 2
  | .sync => 3
  | .other => 4

/-- The received bytes the host presents to the block, in order (60_exceptions.md R159). -/
def presented (as : List HostAction) : List Byte :=
  as.filterMap fun
    | .command (.rxByte b) => some b
    | .command (.rxResp r) => some r
    | _ => none

/-- The commands the host issues, in order. -/
def commandsOf (as : List HostAction) : List Instr :=
  as.filterMap fun
    | .command i => some i
    | _ => none

open Polynomial in
/-- A byte as a polynomial over GF(2), bit k the coefficient of x^k. -/
noncomputable def bytePoly (b : Byte) : (ZMod 2)[X] := ∑ k ∈ Finset.range 8, if b.getLsbD k then X ^ k else 0

open Polynomial in
/-- A half-word as a polynomial over GF(2), bit k the coefficient of x^k. -/
noncomputable def halfPoly (c : Half) : (ZMod 2)[X] := ∑ k ∈ Finset.range 16, if c.getLsbD k then X ^ k else 0

open Polynomial in
/-- The message polynomial M(x) of a byte list, most significant bit first (40_crc_generator.md R77). -/
noncomputable def messagePoly : List Byte → (ZMod 2)[X]
  | [] => 0
  | b :: bs => bytePoly b * X ^ (8 * bs.length) + messagePoly bs

end Sys2Proof.Claims

section Statements

open Sys2Proof Sys2Proof.Machine Sys2Proof.Claims

/-! ### Encoding -/

/-- Decoding and encoding are inverse to each other over all 65536 words (30_encoding.md R60, R62, R63). -/
def Obligations.DecodeInvertsEncode : Prop :=
  ∀ (w : Half) (i : Instr), decode w = .ok i ↔ encode i = w

/-- 30_encoding.md R63: which words are commands, which command each is, how many there are, and that all others are
illegal. -/
def Obligations.DecoderAcceptsExactlyTheLegalWords : Prop :=
  (∀ w : Half, (∃ i, decode w = .ok i) ↔
    (w.extractLsb' 8 8 ∈ ([0x11, 0x20, 0x21, 0x40, 0x41, 0x42] : List Byte)) ∨
    (w.extractLsb' 8 8 ∈ ([0x01, 0x10, 0x22, 0x30, 0x31, 0x32, 0x33, 0x34, 0x35] : List Byte) ∧
      w.extractLsb' 0 8 = 0x00#8)) ∧
  (∀ p ∈ ([(0x01, .sysReset), (0x10, .crcClr), (0x22, .txEnd), (0x30, .txAck), (0x31, .txNak), (0x32, .txEot),
      (0x33, .txEtb), (0x34, .txCan), (0x35, .txSync)] : List (Byte × Instr)), decode (p.1 ++ 0x00#8) = .ok p.2) ∧
  (OperandEncoding 0x11 .crcByte ∧ OperandEncoding 0x20 .txSoh ∧ OperandEncoding 0x21 .txData ∧
    OperandEncoding 0x40 .rxStart ∧ OperandEncoding 0x41 .rxByte ∧ OperandEncoding 0x42 .rxResp) ∧
  (List.range 65536).countP (fun n => (decode (BitVec.ofNat 16 n)).isOk) = 1545 ∧
  (List.range 65536).countP (fun n => !(decode (BitVec.ofNat 16 n)).isOk) = 63991

/-- 30_encoding.md R64: the illegal words are those listed, and performing one sets STATUS.ERR to ILLEGAL and
STATUS.ERRS to 1 and changes nothing else. -/
def Obligations.IllegalWordOnlySetsTheErrorFields : Prop :=
  (∀ w : Half, (∃ e, decode w = .error e) ↔ IllegalWord w) ∧
  ∀ (w : Half) (s : State), IllegalWord w → performWord w s = .next (refusedWith .illegal s)

/-- Words written out from opcode_table.json decode to their commands (30_encoding.md R62). -/
def Obligations.TableWordsDecodeToTheirCommands : Prop :=
  decode 0b0000000100000000#16 = .ok .sysReset ∧ decode 0b0001000000000000#16 = .ok .crcClr ∧
  decode 0b0001000110100101#16 = .ok (.crcByte 0xA5) ∧ decode 0b0010000011111110#16 = .ok (.txSoh 0xFE) ∧
  decode 0b0010000110000001#16 = .ok (.txData 0x81) ∧ decode 0b0010001000000000#16 = .ok .txEnd ∧
  decode 0b0011000000000000#16 = .ok .txAck ∧ decode 0b0011000100000000#16 = .ok .txNak ∧
  decode 0b0011001000000000#16 = .ok .txEot ∧ decode 0b0011001100000000#16 = .ok .txEtb ∧
  decode 0b0011010000000000#16 = .ok .txCan ∧ decode 0b0011010100000000#16 = .ok .txSync ∧
  decode 0b0100000000000001#16 = .ok (.rxStart 0x01) ∧ decode 0b0100000111001001#16 = .ok (.rxByte 0xC9) ∧
  decode 0b0100001000000110#16 = .ok (.rxResp 0x06)

/-! ### The step, the command port and the reset input -/

/-- A step performs the decoded command: when the oldest input is a command word and the reset input is released, the step
is that word performed on the state with this input taken off the list, and a word that decodes to a command is `exec` of
the command (00_scope.md R16, 30_encoding.md R63). The list `inputs` is the model's own (DESIGN CHOICE, log 1). -/
def Obligations.StepPerformsTheDecodedCommand : Prop :=
  (∀ (s : State) (w : Half) (i : Instr) (rest : List PortEvent), s.phase = .released →
    s.inputs = .command w :: rest → decode w = .ok i → step s = exec i { s with inputs := rest }) ∧
  (∀ (s : State) (w : Half) (rest : List PortEvent), s.phase = .released →
    s.inputs = .command w :: rest → step s = performWord w { s with inputs := rest })

/-- With nothing presented the block stays in its state (70_reset_and_hazards.md R180). The list `inputs` is the
model's own (DESIGN CHOICE, log 1). -/
def Obligations.StepWaitsWhenNothingIsPresented : Prop :=
  ∀ s : State, s.inputs = [] → step s = .next s

/-- 70_reset_and_hazards.md R170: asserting the reset input puts every register at its reset value, and so does its
release; every step keeps them there while it is asserted; TXOUT is kept; a command presented meanwhile is not performed.
That the input is an event of the list `inputs`, taken between commands, is the model's choice (log 1, log 3). -/
def Obligations.ResetInputPutsEveryRegisterAtItsResetValue : Prop :=
  (∀ (s : State) (rest : List PortEvent), s.inputs = .resetLine true :: rest →
    step s = .next (zeroed s.txout .asserted rest)) ∧
  (∀ (s : State) (rest : List PortEvent), s.phase = .asserted → s.inputs = .resetLine false :: rest →
    step s = .next (zeroed s.txout .released rest)) ∧
  (∀ (s : State) (w : Half) (rest : List PortEvent), s.phase = .asserted → s.inputs = .command w :: rest →
    step s = .next { s with inputs := rest }) ∧
  (∀ s t : State, s.HeldInReset → step s = .next t → t.HeldInReset) ∧
  (zeroed [] .released []).status = 0x0000#16

/-- 70_reset_and_hazards.md R171: the model starts from the reset state of R170, and a command issued before the first
reset has no meaning. The list `inputs` and the phase before the first reset are the model's (log 1, log 4); that TXOUT,
which R38 says a reset does not change, is empty at State.reset is too (DEDUCED, log 5). -/
def Obligations.CommandBeforeTheFirstResetIsRefused : Prop :=
  State.reset = zeroed [] .released [] ∧
  ∀ (s : State) (w : Half) (rest : List PortEvent), s.phase = .powerOn → s.inputs = .command w :: rest →
    step s = .refused .beforeFirstReset

/-- 70_reset_and_hazards.md R172: SYS.RESET leaves the registers exactly as asserting and releasing the reset input does.
The reset input as an operation of its own is the model's (log 3). -/
def Obligations.SysResetAgreesWithTheResetInput : Prop :=
  ∀ s : State, s.phase = .released → exec .sysReset s = .next ((s.setResetLine true).setResetLine false)

/-- Once the first reset is over, every step answers a next state, and the first reset stays over (00_scope.md R16: the
step function is total). The list `inputs` and the phases are the model's (log 1, log 4). -/
def Obligations.StepAlwaysAnswersAfterTheFirstReset : Prop :=
  ∀ s : State, s.phase ≠ .powerOn → ∃ t, step s = .next t ∧ t.phase ≠ .powerOn

/-- Commands are performed one at a time in the order the host issues them, and each sees the effects of every earlier
one (20_memory.md R56): running the steps of a list of presented words is performing the commands in order. The list
`inputs` is the model's own (DESIGN CHOICE, log 1). -/
def Obligations.PresentedCommandsArePerformedInOrder : Prop :=
  ∀ (is : List Instr) (s : State) (rest : List PortEvent), s.phase = .released →
    s.inputs = is.map (fun i => PortEvent.command (encode i)) ++ rest →
    Host.Core.run core is.length s = execAll is { s with inputs := rest }

/-! ### Registers, the read port and STATUS -/

/-- The reset state: every register of 10_state.md R22 reads 0x0000, and every internal register has its reset code. -/
def Obligations.ResetStateReadsZeroEverywhere : Prop :=
  (∀ i : BitVec 4, State.reset.read i = 0x0000#16) ∧
  State.reset.txst = .idle ∧ State.reset.rxst = .idle ∧ State.reset.rxv = .none ∧ State.reset.resp = .none ∧
  State.reset.err = .ok ∧ State.reset.errs = false

/-- 20_memory.md R54, 10_state.md R37: the read port answers the register of that index, 8-bit registers zero-extended,
reserved indices 0x0000. -/
def Obligations.ReadPortAnswersTheIndexedRegister : Prop :=
  ∀ s : State,
    s.read 0x0 = s.status ∧ s.read 0x1 = s.crc ∧ s.read 0x2 = s.txcrc ∧ (s.read 0x3).toNat = s.txcnt.toNat ∧
    s.read 0x4 = s.rxcrc ∧ s.read 0x5 = s.rxrcrc ∧ (s.read 0x6).toNat = s.rxcnt.toNat ∧
    (s.read 0x7).toNat = s.rxexp.toNat ∧ (s.read 0x8).toNat = s.rxctl.toNat ∧ (s.read 0x9).toNat = s.rxseq.toNat ∧
    (s.read 0xA).toNat = s.rxcpl.toNat ∧ (s.read 0xB).toNat = s.respb.toNat ∧
    ∀ i : BitVec 4, 0xC#4 ≤ i → s.read i = 0x0000#16

/-- 10_state.md R34: the fields of STATUS, each with the codes of R24, R27, R31, R33, R35 and R36; bit 15 reads 0; after
reset STATUS is 0x0000. -/
def Obligations.StatusPacksTheInternalRegisters : Prop :=
  State.reset.status = 0x0000#16 ∧ ∀ s : State,
    s.status.extractLsb' 0 3 = errBits s.err ∧
    s.status.getLsbD 3 = s.errs ∧
    s.status.extractLsb' 4 4 = rxvBits s.rxv ∧
    s.status.extractLsb' 8 3 = rxstBits s.rxst ∧
    s.status.getLsbD 11 = (s.txst == .pay) ∧
    s.status.extractLsb' 12 3 = respBits s.resp ∧
    s.status.getLsbD 15 = false

/-! ### SYS.RESET and the CRC generator -/

/-- 44_system.md R130: every register to its reset value, ERR and ERRS included; TXOUT and what the host presents kept;
illegal with ARG ≠ 0x00; the only command that clears ERRS, and the only one but TX.END that ends a TX frame; its effect
on the registers is the reset input's. -/
def Obligations.SysResetRestoresEveryRegister : Prop :=
  ZeroArgEncoding 0x01 .sysReset ∧
  (∀ s : State, exec .sysReset s = .next (zeroed s.txout s.phase s.inputs) ∧
    s.setResetLine true = zeroed s.txout .asserted s.inputs) ∧
  (zeroed [] .released []).status = 0x0000#16 ∧
  (∀ (i : Instr) (s t : State), exec i s = .next t → s.errs = true → t.errs = false → i = .sysReset) ∧
  (∀ (i : Instr) (s t : State), exec i s = .next t → s.txst = .pay → t.txst = .idle → i = .sysReset ∨ i = .txEnd)

/-- 40_crc_generator.md R73, R74: the two generator commands, legal in every state, change CRC and STATUS.ERR only. -/
def Obligations.CrcCommandsUpdateTheAccumulator : Prop :=
  ZeroArgEncoding 0x10 .crcClr ∧ OperandEncoding 0x11 .crcByte ∧
  (∀ s : State, exec .crcClr s = .next { s with crc := 0x0000, err := .ok }) ∧
  (∀ (s : State) (b : Byte), exec (.crcByte b) s = .next { s with crc := upd16 s.crc b, err := .ok }) ∧
  upd16 0x0000 0x00 = 0x0000#16 ∧ upd16 0xFFFF 0xFF = 0xFF00#16 ∧ upd16 0x0080 0x00 = 0x8000#16 ∧
  upd16 0x0000 0x01 = 0x1021#16

/-- 40_crc_generator.md R75 (the spec's own inference): purity of the generator. From every state CRC.CLR then the bytes of xs leaves
CRC = crc16(xs), again when performed again; without CRC.CLR the fold starts from the old CRC. -/
def Obligations.CrcBlockGivesTheCrcOfItsBytes : Prop :=
  ∀ (s : State) (xs : List Byte),
    execAll (crcBlockCommands xs) s = .next { s with crc := xs.foldl upd16 0x0000, err := .ok } ∧
    execAll (crcBlockCommands xs ++ crcBlockCommands xs) s =
      .next { s with crc := xs.foldl upd16 0x0000, err := .ok } ∧
    (xs ≠ [] → execAll (xs.map .crcByte) s = .next { s with crc := xs.foldl upd16 s.crc, err := .ok })

/-- 40_crc_generator.md R76 (b), (c) (the spec's own inference): linearity over GF(2), runs of zero bytes, and concatenation. -/
def Obligations.CrcIsLinearAndConcatenates : Prop :=
  (∀ (c₁ c₂ : Half) (b₁ b₂ : Byte), upd16 (c₁ ^^^ c₂) (b₁ ^^^ b₂) = upd16 c₁ b₁ ^^^ upd16 c₂ b₂) ∧
  (∀ n : Nat, crc16 (List.replicate n 0x00) = 0x0000#16) ∧
  (∀ xs ys : List Byte, crc16 (xs ++ ys) = ys.foldl upd16 (crc16 xs))

/-- 40_crc_generator.md R76 (d), the residue law (the spec's own inference): a payload followed by its big-endian CRC field has CRC zero. -/
def Obligations.CrcResidueIsZero : Prop :=
  ∀ xs : List Byte, crc16 (xs ++ [(crc16 xs).extractLsb' 8 8, (crc16 xs).extractLsb' 0 8]) = 0x0000#16

open Polynomial in
/-- 40_crc_generator.md R77 (the spec's own inference): crc16(xs) is the remainder of M(x) * x^16 divided by x^16 + x^12 + x^5 + 1 over GF(2). -/
def Obligations.CrcIsThePolynomialRemainder : Prop :=
  ∀ xs : List Byte,
    (messagePoly xs * X ^ 16) %ₘ ((X ^ 16 + X ^ 12 + X ^ 5 + 1 : (ZMod 2)[X])) = halfPoly (crc16 xs)

/-! ### Codec fields -/

/-- 41_codec_fields.md R92, the field laws (the spec's own inference). -/
def Obligations.FieldLaws : Prop :=
  (∀ v : Byte, cpl (cpl v) = v ∧ cpl v ≠ v ∧ cpl v = ~~~v) ∧
  cpl 0x00 = 0xFF#8 ∧ cpl 0x01 = 0xFE#8 ∧ cpl 0xFF = 0x00#8 ∧
  (∀ (v : Byte) (xs : List Byte), xs.length ≤ 128 →
    (frame v xs).length = 133 ∧ (frame v xs)[0]? = some 0x01#8 ∧ ((frame v xs).drop 3).take 128 = pad xs ∧
    crc16 ((frame v xs).drop 3) = 0x0000#16 ∧ frame v xs = frame v (pad xs))

/-- 41_codec_fields.md R85: unmarshalling a marshalled CRC field gives it back; R84: high byte first. -/
def Obligations.CrcFieldRoundTrip : Prop :=
  ∀ c : Half, crcField c = [c.extractLsb' 8 8, c.extractLsb' 0 8] ∧
    crcUnfield (c.extractLsb' 8 8) (c.extractLsb' 0 8) = c ∧
    ∀ h l : Byte, (crcUnfield h l).toNat = 256 * h.toNat + l.toNat

/-- 41_codec_fields.md R93 (the spec's own inference): a frame parses back with its own sequence whatever follows it, and is SEQERR with any
other; the codec does not recover the chunk's length. -/
def Obligations.FrameParsesBack : Prop :=
  ∀ (v : Byte) (xs : List Byte), xs.length ≤ 128 →
    (∀ ys : List Byte, deframe v (frame v xs ++ ys) = some (.dataOk, 133)) ∧
    ((frame v xs).drop 3).take 128 = pad xs ∧
    (∀ e : Byte, e ≠ v → deframe e (frame v xs) = some (.seqErr, 3)) ∧
    frame v xs = frame v (pad xs)

/-- 41_codec_fields.md R91, 10_state.md R44: the host's sequence counter is incremented mod 256, 0xFF is followed by
0x00, and it starts at 1. -/
def Obligations.SequenceNumbersWrapModulo256 : Prop :=
  (∀ v : Byte, (seqNext v).toNat = (v.toNat + 1) % 256) ∧ seqNext 0xFF = 0x00#8 ∧ seqInit = 0x01#8

/-! ### Transmit framer -/

/-- 42_tx_framer.md R96: TX.SOH starts a frame from IDLE and is refused with BUSY in a frame. -/
def Obligations.TxSohStartsAFrame : Prop :=
  OperandEncoding 0x20 .txSoh ∧
  ∀ (s : State) (sn : Byte),
    (s.txst = .idle → exec (.txSoh sn) s =
      .next { s with txout := s.txout ++ [0x01, sn, 0xFF - sn], txcrc := 0x0000, txcnt := 0, txst := .pay, err := .ok }) ∧
    (s.txst = .pay → exec (.txSoh sn) s = .next (refusedWith .busy s))

/-- 42_tx_framer.md R97: TX.DATA emits, counts and feeds one payload byte; STATE with no frame, FULL at 128 bytes. -/
def Obligations.TxDataEmitsOnePayloadByte : Prop :=
  OperandEncoding 0x21 .txData ∧
  ∀ (s : State) (b : Byte),
    (s.txst = .pay → s.txcnt ≠ 128#8 → exec (.txData b) s =
      .next { s with txout := s.txout ++ [b], txcrc := upd16 s.txcrc b, txcnt := s.txcnt + 1, err := .ok }) ∧
    (s.txst = .idle → exec (.txData b) s = .next (refusedWith .state s)) ∧
    (s.txst = .pay → s.txcnt = 128#8 → exec (.txData b) s = .next (refusedWith .full s))

/-- 42_tx_framer.md R98: TX.END emits the pad bytes and then the CRC field, and ends the frame; STATE with no frame. -/
def Obligations.TxEndPadsAndEmitsTheCrc : Prop :=
  ZeroArgEncoding 0x22 .txEnd ∧
  ∀ s : State,
    (s.txst = .pay →
      let zeros : List Byte := List.replicate (128 - s.txcnt.toNat) 0x00
      let c := zeros.foldl upd16 s.txcrc
      exec .txEnd s =
        .next { s with
          txout := s.txout ++ zeros ++ [c.extractLsb' 8 8, c.extractLsb' 0 8], txcrc := c, txcnt := 128,
          txst := .idle, err := .ok }) ∧
    (s.txst = .idle → exec .txEnd s = .next (refusedWith .state s))

/-- 42_tx_framer.md R100 to R105: each control-byte command emits its code and changes nothing but TXOUT and
STATUS.ERR; it is refused with BUSY inside a data frame. -/
def Obligations.ControlBytesAreEmittedOutsideFrames : Prop :=
  ∀ p ∈ controlCommands,
    ZeroArgEncoding p.2.1 p.1 ∧
    ∀ s : State,
      (s.txst = .idle → exec p.1 s = .next { s with txout := s.txout ++ [p.2.2], err := .ok }) ∧
      (s.txst = .pay → exec p.1 s = .next (refusedWith .busy s))

/-- 42_tx_framer.md R99, the framing law (the spec's own inference): TX.SOH s, one TX.DATA for each byte of xs, TX.END appends exactly
frame(s, xs), raises no error on the way, and performed twice emits the same 133 bytes twice. -/
def Obligations.FramingLaw : Prop :=
  ∀ (s : State) (sn : Byte) (xs : List Byte), s.txst = .idle → xs.length ≤ 128 →
    let cmds := txPacketCommands sn xs
    let after : State :=
      { s with txout := s.txout ++ frame sn xs, txcnt := 128, txcrc := crc16 (pad xs), err := .ok }
    execAll cmds s = .next after ∧ (frame sn xs).length = 133 ∧
    (∀ k, 0 < k → k ≤ cmds.length → ∃ u, execAll (cmds.take k) s = .next u ∧ u.err = .ok ∧ u.errs = s.errs) ∧
    execAll (cmds ++ cmds) s = .next { after with txout := s.txout ++ frame sn xs ++ frame sn xs }

/-- 42_tx_framer.md R108: a frame in progress ends only by TX.END, SYS.RESET or the reset input. The list `inputs` is the
model's own (DESIGN CHOICE, log 1). -/
def Obligations.OnlyTxEndOrResetEndsAFrame : Prop :=
  ∀ s t : State, step s = .next t → s.txst = .pay → t.txst = .idle →
    (∃ rest level, s.inputs = .resetLine level :: rest) ∨
    (∃ rest w, s.inputs = .command w :: rest ∧ (decode w = .ok .txEnd ∨ decode w = .ok .sysReset))

/-- 42_tx_framer.md R109 (the spec's own inference), 10_state.md R38: nothing the block does removes bytes from TXOUT, and an erroneous command,
the reset input and SYS.RESET emit nothing. The list `inputs` is the model's own (DESIGN CHOICE, log 1). -/
def Obligations.TxoutOnlyGrows : Prop :=
  (∀ s t : State, step s = .next t → s.txout <+: t.txout) ∧
  (∀ (i : Instr) (s t : State), exec i s = .next t → t.err ≠ .ok → t.txout = s.txout) ∧
  (∀ s t : State, exec .sysReset s = .next t → t.txout = s.txout) ∧
  (∀ (level : Bool) (rest : List PortEvent) (s t : State), s.inputs = .resetLine level :: rest → step s = .next t →
    t.txout = s.txout)

/-- 20_memory.md R52 (the spec's own inference): how many bytes each successful command emits; an erroneous one emits none. -/
def Obligations.EmittedByteCounts : Prop :=
  (∀ (i : Instr) (s t : State), exec i s = .next t → t.err ≠ .ok → t.txout.length = s.txout.length) ∧
  ∀ (i : Instr) (s t : State), s.txcnt ≤ 128#8 → exec i s = .next t → t.err = .ok →
    t.txout.length = s.txout.length +
      (match i with
        | .txSoh _ => 3
        | .txData _ => 1
        | .txEnd => 130 - s.txcnt.toNat
        | .txAck => 1
        | .txNak => 1
        | .txEot => 1
        | .txEtb => 1
        | .txCan => 1
        | .txSync => 1
        | .sysReset => 0
        | .crcClr => 0
        | .crcByte _ => 0
        | .rxStart _ => 0
        | .rxByte _ => 0
        | .rxResp _ => 0)

/-! ### Deframer and classifier -/

/-- 43_rx_deframer.md R110: RX.START arms the deframer in every state; the framer, the generator and RESP untouched. -/
def Obligations.RxStartArmsTheDeframer : Prop :=
  OperandEncoding 0x40 .rxStart ∧
  ∀ (s : State) (e : Byte), exec (.rxStart e) s =
    .next { s with
      rxexp := e, rxst := .ctl, rxv := .none, rxcnt := 0, rxcrc := 0x0000, rxrcrc := 0x0000, rxctl := 0x00,
      rxseq := 0x00, rxcpl := 0x00, err := .ok }

/-- 43_rx_deframer.md R111 to R117: what a received byte does in each state of the deframer; STATE when IDLE. -/
def Obligations.RxByteFollowsTheDeframerState : Prop :=
  OperandEncoding 0x41 .rxByte ∧
  ∀ (s : State) (b : Byte),
    (s.rxst = .idle → exec (.rxByte b) s = .next (refusedWith .state s)) ∧
    (s.rxst = .ctl → exec (.rxByte b) s = .next
      (if b = 0x01#8 then { s with rxctl := b, rxst := .seq, err := .ok }
       else if b = 0x04#8 then { s with rxctl := b, rxv := .eot, rxst := .idle, err := .ok }
       else if b = 0x17#8 then { s with rxctl := b, rxv := .etb, rxst := .idle, err := .ok }
       else if b = 0x18#8 then { s with rxctl := b, rxv := .can, rxst := .idle, err := .ok }
       else { s with rxctl := b, rxv := .badCtl, rxst := .idle, err := .ok })) ∧
    (s.rxst = .seq → exec (.rxByte b) s = .next { s with rxseq := b, rxst := .cpl, err := .ok }) ∧
    (s.rxst = .cpl → exec (.rxByte b) s = .next
      (if s.rxseq = s.rxexp ∧ b = 0xFF#8 - s.rxexp then { s with rxcpl := b, rxst := .pay, err := .ok }
       else { s with rxcpl := b, rxv := .seqErr, rxst := .idle, err := .ok })) ∧
    (s.rxst = .pay → exec (.rxByte b) s = .next
      { s with
        rxcrc := upd16 s.rxcrc b, rxcnt := s.rxcnt + 1, rxst := if s.rxcnt + 1 = 128#8 then .crcH else .pay,
        err := .ok }) ∧
    (s.rxst = .crcH → exec (.rxByte b) s = .next { s with rxrcrc := b ++ 0x00#8, rxst := .crcL, err := .ok }) ∧
    (s.rxst = .crcL → exec (.rxByte b) s = .next
      { s with
        rxrcrc := s.rxrcrc ||| b.zeroExtend 16,
        rxv := if s.rxrcrc ||| b.zeroExtend 16 = s.rxcrc then .dataOk else .crcErr, rxst := .idle, err := .ok })

/-- 43_rx_deframer.md R119, 41_codec_fields.md R90: RX.RESP keeps the byte and its class, in every state. -/
def Obligations.RxRespClassifiesTheByte : Prop :=
  OperandEncoding 0x42 .rxResp ∧
  ∀ (s : State) (r : Byte), exec (.rxResp r) s =
    .next { s with
      respb := r,
      resp := if r = 0x06#8 then .ack else if r = 0x15#8 then .nak else if r = 0x43#8 then .sync else .other,
      err := .ok }

/-- 43_rx_deframer.md R118, the deframing law (the spec's own inference): after RX.START e, feeding bytes one by one agrees with deframe(e, bs) of
41_codec_fields.md R89. -/
def Obligations.DeframingLaw : Prop :=
  (∀ (s : State) (e : Byte) (bs : List Byte) (v : Verdict) (k : Nat), deframe e bs = some (v, k) →
    k ≤ bs.length ∧
    (∀ j, j < k → ∃ t, execAll (rxFrameCommands e (bs.take j)) s = .next t ∧ t.err = .ok ∧ t.errs = s.errs ∧
      t.rxv = .none ∧ t.rxst ≠ .idle) ∧
    (∃ t, execAll (rxFrameCommands e (bs.take k)) s = .next t ∧ t.err = .ok ∧ t.errs = s.errs ∧ t.rxst = .idle ∧
      t.rxv = v ∧ ∀ b, exec (.rxByte b) t = .next (refusedWith .state t))) ∧
  (∀ (s : State) (e : Byte) (bs : List Byte), deframe e bs = none → ∀ j, j ≤ bs.length →
    ∃ t, execAll (rxFrameCommands e (bs.take j)) s = .next t ∧ t.err = .ok ∧ t.errs = s.errs ∧ t.rxst ≠ .idle) ∧
  (∀ (s : State) (sn : Byte) (xs : List Byte), xs.length ≤ 128 →
    ∃ t, execAll (rxFrameCommands sn (frame sn xs)) s = .next t ∧ t.rxv = .dataOk)

/-- A packet sent by one instance is received by another (60_exceptions.md R144; 42_tx_framer.md R99 and
43_rx_deframer.md R118, the spec's own inferences): the bytes the framer appends to TXOUT, fed to the other's deframer, end with DATA_OK and the
same CRC when it expects that sequence, and with SEQERR after three bytes when it expects another. -/
def Obligations.PacketTravelsFromFramerToDeframer : Prop :=
  ∀ (tx rx : State) (sn e : Byte) (xs : List Byte), tx.txst = .idle → xs.length ≤ 128 →
    ∃ t, execAll (txPacketCommands sn xs) tx = .next t ∧
      (∃ r, execAll (rxFrameCommands sn (t.txout.drop tx.txout.length)) rx = .next r ∧ r.rxst = .idle ∧
        r.rxv = .dataOk ∧ r.rxcnt = 128#8 ∧ r.rxcrc = t.txcrc ∧ r.rxrcrc = t.txcrc ∧ r.rxseq = sn ∧ r.err = .ok) ∧
      (e ≠ sn → ∃ r, execAll (rxFrameCommands e ((t.txout.drop tx.txout.length).take 3)) rx = .next r ∧
        r.rxst = .idle ∧ r.rxv = .seqErr ∧ r.rxseq = sn ∧ r.err = .ok)

/-- 43_rx_deframer.md R123 (the spec's own inference): the deframer keeps no history: what it holds after RX.START e and some bytes does not depend
on the state before. -/
def Obligations.DeframerKeepsNoHistory : Prop :=
  ∀ (s₁ s₂ : State) (e : Byte) (bs : List Byte), ∃ t₁ t₂,
    execAll (rxFrameCommands e bs) s₁ = .next t₁ ∧ execAll (rxFrameCommands e bs) s₂ = .next t₂ ∧
    rxView t₁ = rxView t₂

/-- 43_rx_deframer.md R122: RX.START arms the deframer in every state of it; while it is IDLE no other command but
SYS.RESET changes a register of it, and RX.BYTE is then refused with STATE. -/
def Obligations.VerdictStaysUntilReArmed : Prop :=
  (∀ (s : State) (e : Byte), ∃ t, exec (.rxStart e) s = .next t ∧ t.rxst = .ctl ∧ t.rxv = .none ∧ t.err = .ok) ∧
  (∀ (i : Instr) (s t : State), s.rxst = .idle → exec i s = .next t → i ≠ .sysReset → (∀ e, i ≠ .rxStart e) →
    rxView t = rxView s) ∧
  (∀ (b : Byte) (s : State), s.rxst = .idle → exec (.rxByte b) s = .next (refusedWith .state s))

/-- 70_reset_and_hazards.md R178 (the spec's own inference): after a SEQERR the block drains nothing. Re-armed, it takes the rejected frame's first
payload byte as a control byte. -/
def Obligations.RejectedFrameIsNotDrained : Prop :=
  ∀ (s : State) (sn e : Byte) (x : Byte) (xs : List Byte), xs.length ≤ 127 → e ≠ sn →
    ∃ t u, execAll (rxFrameCommands e ((frame sn (x :: xs)).take 3)) s = .next t ∧ t.rxst = .idle ∧ t.rxv = .seqErr ∧
      execAll (rxFrameCommands e (((frame sn (x :: xs)).drop 3).take 1)) t = .next u ∧ u.rxctl = x ∧ u.err = .ok ∧
      (x = 0x01#8 → u.rxst = .seq ∧ u.rxv = .none) ∧
      (x = 0x04#8 → u.rxst = .idle ∧ u.rxv = .eot) ∧
      (x = 0x17#8 → u.rxst = .idle ∧ u.rxv = .etb) ∧
      (x = 0x18#8 → u.rxst = .idle ∧ u.rxv = .can) ∧
      (x ≠ 0x01#8 → x ≠ 0x04#8 → x ≠ 0x17#8 → x ≠ 0x18#8 → u.rxst = .idle ∧ u.rxv = .badCtl)

/-! ### Errors -/

/-- 60_exceptions.md R135, R136: whatever word is performed, a refused command changes STATUS.ERR and STATUS.ERRS only;
a successful one sets STATUS.ERR to OK and leaves STATUS.ERRS unchanged (SYS.RESET, whose own rule R130 clears it,
apart). -/
def Obligations.RefusalChangesOnlyTheErrorFields : Prop :=
  ∀ (w : Half) (s : State), ∃ t, performWord w s = .next t ∧
    (t.err ≠ .ok → t = refusedWith t.err s) ∧ (t.err = .ok → decode w ≠ .ok .sysReset → t.errs = s.errs)

/-- 60_exceptions.md R137, R138: every command answers a next state, and which error it reports, by state. ILLEGAL is
decided from the word alone. -/
def Obligations.CommandErrorsFollowTheTable : Prop :=
  (∀ (i : Instr) (s : State), ∃ t, exec i s = .next t ∧ t.err ≠ .illegal ∧
    (t.err = .busy ↔ s.txst = .pay ∧
      ((∃ sn, i = .txSoh sn) ∨ i ∈ [Instr.txAck, .txNak, .txEot, .txEtb, .txCan, .txSync])) ∧
    (t.err = .state ↔
      (s.txst = .idle ∧ ((∃ b, i = .txData b) ∨ i = .txEnd)) ∨ (s.rxst = .idle ∧ ∃ b, i = .rxByte b)) ∧
    (t.err = .full ↔ s.txst = .pay ∧ s.txcnt = 128#8 ∧ ∃ b, i = .txData b)) ∧
  (∀ (w : Half) (s : State), IllegalWord w → performWord w s = .next (refusedWith .illegal s))

/-- 10_state.md R36: the sticky flag is set by every erroneous command, kept by a successful one, and cleared only by
the reset input and SYS.RESET. -/
def Obligations.StickyErrorFlag : Prop :=
  (∀ (w : Half) (s t : State), performWord w s = .next t → t.err ≠ .ok → t.errs = true) ∧
  (∀ (w : Half) (s t : State), performWord w s = .next t → t.err = .ok → decode w ≠ .ok .sysReset →
    t.errs = s.errs) ∧
  (∀ (w : Half) (s t : State), performWord w s = .next t → decode w = .ok .sysReset → t.errs = false) ∧
  (∀ s : State, (s.setResetLine true).errs = false)

/-- 10_state.md R39 (the spec's own inference): which command writes which field of STATUS. -/
def Obligations.StatusFieldsWrittenAsTabled : Prop :=
  ∀ (i : Instr) (s t : State), exec i s = .next t →
    (t.err ≠ .ok → t.errs = true ∧ t.rxv = s.rxv ∧ t.rxst = s.rxst ∧ t.txst = s.txst ∧ t.resp = s.resp) ∧
    (t.err = .ok →
      match i with
      | .sysReset => t.errs = false ∧ t.rxv = .none ∧ t.rxst = .idle ∧ t.txst = .idle ∧ t.resp = .none
      | .txSoh _ => t.errs = s.errs ∧ t.rxv = s.rxv ∧ t.rxst = s.rxst ∧ t.txst = .pay ∧ t.resp = s.resp
      | .txEnd => t.errs = s.errs ∧ t.rxv = s.rxv ∧ t.rxst = s.rxst ∧ t.txst = .idle ∧ t.resp = s.resp
      | .rxStart _ => t.errs = s.errs ∧ t.rxv = .none ∧ t.rxst = .ctl ∧ t.txst = s.txst ∧ t.resp = s.resp
      | .rxByte _ => t.errs = s.errs ∧ t.txst = s.txst ∧ t.resp = s.resp ∧ (t.rxst ≠ .idle → t.rxv = s.rxv)
      | .rxResp r => t.errs = s.errs ∧ t.rxv = s.rxv ∧ t.rxst = s.rxst ∧ t.txst = s.txst ∧ t.resp = respClass r
      | .crcClr => t.errs = s.errs ∧ t.rxv = s.rxv ∧ t.rxst = s.rxst ∧ t.txst = s.txst ∧ t.resp = s.resp
      | .crcByte _ => t.errs = s.errs ∧ t.rxv = s.rxv ∧ t.rxst = s.rxst ∧ t.txst = s.txst ∧ t.resp = s.resp
      | .txData _ => t.errs = s.errs ∧ t.rxv = s.rxv ∧ t.rxst = s.rxst ∧ t.txst = s.txst ∧ t.resp = s.resp
      | .txAck => t.errs = s.errs ∧ t.rxv = s.rxv ∧ t.rxst = s.rxst ∧ t.txst = s.txst ∧ t.resp = s.resp
      | .txNak => t.errs = s.errs ∧ t.rxv = s.rxv ∧ t.rxst = s.rxst ∧ t.txst = s.txst ∧ t.resp = s.resp
      | .txEot => t.errs = s.errs ∧ t.rxv = s.rxv ∧ t.rxst = s.rxst ∧ t.txst = s.txst ∧ t.resp = s.resp
      | .txEtb => t.errs = s.errs ∧ t.rxv = s.rxv ∧ t.rxst = s.rxst ∧ t.txst = s.txst ∧ t.resp = s.resp
      | .txCan => t.errs = s.errs ∧ t.rxv = s.rxv ∧ t.rxst = s.rxst ∧ t.txst = s.txst ∧ t.resp = s.resp
      | .txSync => t.errs = s.errs ∧ t.rxv = s.rxv ∧ t.rxst = s.rxst ∧ t.txst = s.txst ∧ t.resp = s.resp)

/-! ### Frames and independence of the units -/

/-- What each command leaves unchanged (10_state.md R20, R23 to R33; 00_scope.md R11): whatever it answers, every
register, TXOUT, the reset input and the inputs are as before but for those its unit owns. -/
def Obligations.EachCommandWritesOnlyItsUnit : Prop :=
  ∀ (i : Instr) (s t : State), exec i s = .next t →
    t.phase = s.phase ∧ t.inputs = s.inputs ∧
    (isCrcCommand i = true → t = { s with crc := t.crc, err := .ok }) ∧
    (isTxCommand i = true → t =
      { s with txst := t.txst, txcrc := t.txcrc, txcnt := t.txcnt, txout := t.txout, err := t.err, errs := t.errs }) ∧
    (isRxCommand i = true → t =
      { s with
        rxst := t.rxst, rxv := t.rxv, rxexp := t.rxexp, rxctl := t.rxctl, rxseq := t.rxseq, rxcpl := t.rxcpl,
        rxcnt := t.rxcnt, rxcrc := t.rxcrc, rxrcrc := t.rxrcrc, err := t.err, errs := t.errs }) ∧
    (isRespCommand i = true → t = { s with respb := t.respb, resp := t.resp, err := .ok })

/-- The four units do not interfere (10_state.md R23, 43_rx_deframer.md R119, 70_reset_and_hazards.md R179): what a unit
holds after a list of commands is what it holds after the commands of its own unit and SYS.RESET alone. -/
def Obligations.UnitsDoNotInterfere : Prop :=
  ∀ (is : List Instr) (s : State), ∃ t tc tt tr tp,
    execAll is s = .next t ∧
    execAll (is.filter fun i => isCrcCommand i || i == .sysReset) s = .next tc ∧ t.crc = tc.crc ∧
    execAll (is.filter fun i => isTxCommand i || i == .sysReset) s = .next tt ∧ txView t = txView tt ∧
    execAll (is.filter fun i => isRxCommand i || i == .sysReset) s = .next tr ∧ rxView t = rxView tr ∧
    execAll (is.filter fun i => isRespCommand i || i == .sysReset) s = .next tp ∧ respView t = respView tp

/-! ### Invariants -/

/-- The state after reset meets every invariant of Safety.lean. -/
def Obligations.ResetMeetsTheInvariants : Prop :=
  State.reset.Inv ∧ State.reset.FrameOnWire ∧ State.reset.HeldInReset ∧ State.reset.Ready

/-- 10_state.md R40 (the spec's own inference): its invariants hold after reset and are kept by every step, from every state that meets them; no
code beyond its bounds is ever read. -/
def Obligations.StepKeepsTheRegisterInvariants : Prop :=
  State.reset.Inv ∧
  (∀ s t : State, s.Inv → step s = .next t → t.Inv) ∧
  ∀ s : State, s.rxst.code ≠ 7 ∧ s.rxv.code ≤ 7 ∧ s.resp.code ≤ 4 ∧ s.err.code ≤ 4

/-- 10_state.md R25, R26: while TXST = PAY, TXOUT ends with the frame's header and TXCNT payload bytes, and TXCRC is the
CRC of these bytes. Every step keeps this from every state that meets it and the invariants of R40. -/
def Obligations.StepKeepsTheFrameOnTheWire : Prop :=
  ∀ s t : State, s.Inv → s.FrameOnWire → step s = .next t → t.FrameOnWire

/-! ### Pseudo-instructions and the host's decisions -/

/-- 30_encoding.md R68: the expansions of the pseudo-instructions and their conditions; an expansion is performed in
order, and an erroneous command in the middle does not stop the rest. That a list outside its condition is an assembly
error, and the names of the errors, are the model's (DESIGN CHOICE, log 11; R68 says so of TX.CTRL only). -/
def Obligations.PseudoInstructionsExpand : Prop :=
  (∀ bs : List Byte, (Pseudo.crcBlock bs).expand = .ok (.crcClr :: bs.map .crcByte)) ∧
  (∀ (sn : Byte) (bs : List Byte), bs.length ≤ 128 →
    (Pseudo.txPacket sn bs).expand = .ok ([.txSoh sn] ++ bs.map .txData ++ [.txEnd])) ∧
  (∀ (sn : Byte) (bs : List Byte), 128 < bs.length → (Pseudo.txPacket sn bs).expand = .error .chunkTooLong) ∧
  (∀ (b : Byte) (bs : List Byte), (Pseudo.rxFeed (b :: bs)).expand = .ok (.rxByte b :: bs.map .rxByte)) ∧
  (∀ (e b : Byte) (bs : List Byte),
    (Pseudo.rxFrame e (b :: bs)).expand = .ok (.rxStart e :: .rxByte b :: bs.map .rxByte)) ∧
  (∀ (e : Byte), (Pseudo.rxFeed []).expand = .error .noBytes ∧ (Pseudo.rxFrame e []).expand = .error .noBytes) ∧
  (∀ p ∈ controlCommands, (Pseudo.txCtrl p.2.2).expand = .ok [p.1]) ∧
  (∀ x : Byte, x ∉ controlCommands.map (fun p => p.2.2) → (Pseudo.txCtrl x).expand = .error .noSuchControl) ∧
  (∀ (is js : List Instr) (s : State), ∃ t u, execAll is s = .next t ∧ execAll js t = .next u ∧
    execAll (is ++ js) s = .next u)

/-- 30_encoding.md R67: a zero-ARG mnemonic is its command without an argument and an assembly error with any; an operand
mnemonic is an assembly error without an argument and its command with one; a number outside 0..255 is an assembly error.
The names of the errors and how a literal's digits are read are the model's choice (DESIGN CHOICE, log 11). -/
def Obligations.AssemblerChecksArguments : Prop :=
  (∀ p ∈ ([("SYS.RESET", .sysReset), ("CRC.CLR", .crcClr), ("TX.END", .txEnd), ("TX.ACK", .txAck),
      ("TX.NAK", .txNak), ("TX.EOT", .txEot), ("TX.ETB", .txEtb), ("TX.CAN", .txCan),
      ("TX.SYNC", .txSync)] : List (String × Instr)),
    mnemonicLine p.1 [] = .ok [p.2] ∧
    ∀ (b : Byte) (bs : List Byte), mnemonicLine p.1 (b :: bs) = .error .unexpectedArgument) ∧
  (∀ b : Byte, ∀ p ∈ ([("CRC.BYTE", .crcByte b), ("TX.SOH", .txSoh b), ("TX.DATA", .txData b), ("RX.START", .rxStart b),
      ("RX.BYTE", .rxByte b), ("RX.RESP", .rxResp b)] : List (String × Instr)),
    mnemonicLine p.1 [] = .error .missingArgument ∧ mnemonicLine p.1 [b] = .ok [p.2]) ∧
  (∀ (cs : List Char) (n : Nat), numberValue cs = some n →
    argByte (.word cs) = if n ≤ 255 then .ok (BitVec.ofNat 8 n) else .error .outOfRange)

/-- 60_exceptions.md R154, R155: the retry budget of one expected sequence is three mismatches of either kind together:
the first two are answered with TX.NAK and a retry after the backoff, the third with TX.NAK and a failure. Whether a
backoff comes before the failure is open (I10, log 8). In a run over received bytes, EOT in between is not counted. -/
def Obligations.ThirdMismatchExhaustsTheRetryBudget : Prop :=
  (∀ v ∈ [Verdict.seqErr, .crcErr], ∀ sn : Byte,
    receiverReply v ⟨sn, 0⟩ = some ([.txNak], .retryAfter 1 ⟨sn, 1⟩) ∧
    receiverReply v ⟨sn, 1⟩ = some ([.txNak], .retryAfter 1 ⟨sn, 2⟩) ∧
    ∃ backoff, receiverReply v ⟨sn, 2⟩ = some ([.txNak], .fail backoff)) ∧
  (∀ (sn s₁ s₂ s₃ : Byte) (ys : List Byte), s₁ ≠ sn → s₂ ≠ sn → s₃ ≠ sn →
    ∃ backoff, receivePacket ⟨sn, 0⟩ ([0x01, s₁, cpl s₁] ++ [0x04] ++ [0x01, s₂, cpl s₂] ++ [0x01, s₃, cpl s₃] ++ ys) =
      { actions :=
          commandActions (rxFrameCommands sn [0x01, s₁, cpl s₁] ++ [.txNak]) ++ [.wait 1] ++
            commandActions (rxFrameCommands sn [0x04] ++ [.txAck]) ++
            commandActions (rxFrameCommands sn [0x01, s₂, cpl s₂] ++ [.txNak]) ++ [.wait 1] ++
            commandActions (rxFrameCommands sn [0x01, s₃, cpl s₃] ++ [.txNak]) ++ (if backoff then [.wait 1] else []),
        result := some (.protocolError backoff), rest := ys })

/-- 60_exceptions.md R160, R151: the chunks of a file are its successive pieces, only the last may be short, and the
received content is the file followed by zero bytes up to the next multiple of 128. -/
def Obligations.ReceivedFileIsTheFileZeroPadded : Prop :=
  ∀ file : List Byte, file ≠ [] →
    (senderChunks file).flatten = file ∧
    (∀ xs ∈ senderChunks file, 0 < xs.length ∧ xs.length ≤ 128) ∧
    (∀ xs ∈ (senderChunks file).dropLast, xs.length = 128) ∧
    ∃ n, n < 128 ∧ receivedContent (senderChunks file) = file ++ List.replicate n 0x00 ∧
      128 ∣ (receivedContent (senderChunks file)).length

/-- 60_exceptions.md R149, R155: the receiver's sequence advances only when a packet is accepted, to the next number mod
256 and with the retry counter at 0; every other reply that goes on expects the same sequence. A packet of the expected
sequence is accepted whatever was counted before, with the padded chunk as its payload, and leaves the bytes after it. -/
def Obligations.ReceiverAdvancesOnlyOnAcceptance : Prop :=
  (∀ e : Expecting, receiverReply .dataOk e = some ([.txAck], .accept ⟨e.sn + 1, 0⟩)) ∧
  (∀ (v : Verdict) (e next : Expecting) (is : List Instr), receiverReply v e = some (is, .accept next) → v = .dataOk) ∧
  (∀ (v : Verdict) (e same : Expecting) (is : List Instr), receiverReply v e = some (is, .sameSequence same) →
    v = .eot ∧ same = e) ∧
  (∀ (v : Verdict) (e same : Expecting) (is : List Instr) (n : Nat),
    receiverReply v e = some (is, .retryAfter n same) → same = ⟨e.sn, e.retry + 1⟩) ∧
  (∀ (e : Expecting) (xs ys : List Byte), xs.length ≤ 128 →
    receivePacket e (frame e.sn xs ++ ys) =
      { actions := commandActions (rxFrameCommands e.sn (frame e.sn xs) ++ [.txAck]),
        result := some (.payload (pad xs) ⟨e.sn + 1, 0⟩), rest := ys })

/-- 60_exceptions.md R153 with decision D38: the handshake sends TX.SYNC, waits up to 3 seconds and expects sequence 1; a
full payload goes on with sequence 2; a ProtocolError is fatal; a timeout and every other outcome send TX.SYNC again. That
a cancelled first packet does so as the restart of R156 is the model's reading (DEDUCED, log 12). In every round TX.SYNC is
sent once more after each timeout, and the block is armed only when a byte is ready. -/
def Obligations.HandshakeFollowsTheFirstPacket : Prop :=
  syncRound = .syncAgain [.txSync] 3 ⟨0x01, 0⟩ ∧
  (∀ (xs ys : List Byte), xs.length ≤ 128 →
    syncMove (receivePacket ⟨0x01, 0⟩ (frame 0x01 xs ++ ys)).result = .steady (pad xs) ⟨0x02, 0⟩) ∧
  (∀ backoff : Bool, syncMove (some (.protocolError backoff)) = .fail) ∧
  syncMove none = syncRound ∧ syncMove (some .complete) = syncRound ∧
  (∃ r : SessionRestart, syncMove (some .cancelled) = .restart r ∧ r.file = [] ∧ r.commands = [.txSync] ∧
    r.expects = ⟨0x01, 0⟩) ∧
  (∀ n : Nat, syncActions n =
    (List.replicate n [HostAction.command .txSync, .wait 3]).flatten ++ [.command .txSync]) ∧
  ∀ (n m : Nat) (timeouts : List Nat),
    receiveFile true (n :: timeouts) [] = { actions := syncActions n, result := none, rest := [] } ∧
    receiveFile true (n :: m :: timeouts) [0x17] =
      { actions := syncActions n ++ commandActions (rxFrameCommands 0x01 [0x17] ++ [.txAck]) ++ syncActions m,
        result := none, rest := [] } ∧
    receiveFile true (n :: m :: timeouts) [0x18] =
      { actions :=
          syncActions n ++ commandActions (rxFrameCommands 0x01 [0x18]) ++ [.pause Config.cancelPause, .flush] ++
            syncActions m,
        result := none, rest := [] }

/-- 60_exceptions.md R150: the sender's host presents the byte read before the first packet, if there was one, flushes the
transport, and goes on as without it, whatever the byte; a source file that cannot be opened is fatal. That it issues the
RX.RESP R150 allows follows R159 (DEDUCED, log 12). -/
def Obligations.SenderGoesOnWhateverTheFirstByte : Prop :=
  (∀ (file rs : List Byte), ∃ as result rest,
    sendFile (some file) none rs = { actions := .flush :: as, result, rest } ∧
    ∀ r : Byte, sendFile (some file) (some r) rs =
      { actions := .command (.rxResp r) :: .flush :: as, result, rest }) ∧
  ∀ (first : Option Byte) (rs : List Byte),
    sendFile none first rs = { actions := [], result := some .fileError, rest := rs }

/-- 60_exceptions.md R151: the sender's host sends the same packet again, with a flush before, on every response that is
not ACK, without bound; on ACK it advances to the next sequence; with no response it waits. -/
def Obligations.SenderRepeatsThePacketUntilAck : Prop :=
  ∀ (sn : Byte) (xs refusals : List Byte), (∀ r ∈ refusals, r ≠ 0x06#8) →
    let again := refusals.flatMap fun r => commandActions (txPacketCommands sn xs ++ [.rxResp r]) ++ [.flush]
    sendPacket sn xs refusals =
      { actions := again ++ commandActions (txPacketCommands sn xs), result := none, rest := [] } ∧
    ∀ rs : List Byte, sendPacket sn xs (refusals ++ 0x06#8 :: rs) =
      { actions := again ++ commandActions (txPacketCommands sn xs ++ [.rxResp 0x06]), result := some (sn + 1), rest := rs }

/-- 60_exceptions.md R152: after the last chunk TX.EOT and, only on its ACK, TX.ETB; a response to either that is not ACK
fails the send and nothing is sent again. -/
def Obligations.SenderEndsWithEotThenEtb : Prop :=
  sendEnd [] = { actions := commandActions [.txEot], result := none, rest := [] } ∧
  (∀ (r : Byte) (rs : List Byte), r ≠ 0x06#8 →
    sendEnd (r :: rs) = { actions := commandActions [.txEot, .rxResp r], result := some .protocolError, rest := rs }) ∧
  sendEnd [0x06] = { actions := commandActions [.txEot, .rxResp 0x06, .txEtb], result := none, rest := [] } ∧
  ∀ (r : Byte) (rs : List Byte), sendEnd (0x06#8 :: r :: rs) =
    { actions := commandActions [.txEot, .rxResp 0x06, .txEtb, .rxResp r],
      result := some (if r = 0x06#8 then .sent else .protocolError), rest := rs }

/-- 60_exceptions.md R159: both hosts present every byte they read to the block once and in order, the sender as RX.RESP
and the receiver as RX.BYTE, and present no other byte. -/
def Obligations.HostPresentsEveryByteOnce : Prop :=
  (∀ (file rs : List Byte) (first : Option Byte),
    presented (sendFile (some file) first rs).actions ++ (sendFile (some file) first rs).rest = first.toList ++ rs ∧
    ∀ b, Instr.rxByte b ∉ commandsOf (sendFile (some file) first rs).actions) ∧
  (∀ (timeouts : List Nat) (bs : List Byte),
    presented (receiveFile true timeouts bs).actions ++ (receiveFile true timeouts bs).rest = bs ∧
    ∀ r, Instr.rxResp r ∉ commandsOf (receiveFile true timeouts bs).actions)

/-- 60_exceptions.md R149 to R154, R160: a transfer in which the sync request is read and every response is ACK. The
sender's host completes; the commands it issues leave on TXOUT bytes which, read by the receiver's host after any number of
timeouts in each round, make it complete with the file zero-padded, and it reads no byte after them. The receiver's host takes its
verdicts from the reference parser of 41_codec_fields.md R89: no receiving block is in the statement (`DeframingLaw` says
that the block agrees with the parser). That a transfer is a run over the bytes read, with a number of timeouts in
each round of a handshake and no transport between, is the model's choice (DESIGN CHOICE, log 12). -/
def Obligations.TransferDeliversThePaddedFile : Prop :=
  ∀ (file : List Byte) (s : State) (timeouts : List Nat), file ≠ [] → s.txst = .idle →
    let sent := sendFile (some file) (some 0x43) (List.replicate ((senderChunks file).length + 2) 0x06)
    sent.result = some .sent ∧ sent.rest = [] ∧
    ∃ t wire, execAll (commandsOf sent.actions) s = .next t ∧ t.txout = s.txout ++ wire ∧
      ∀ ys : List Byte, (receiveFile true timeouts (wire ++ ys)).result =
          some (.received (receivedContent (senderChunks file))) ∧
        (receiveFile true timeouts (wire ++ ys)).rest = ys

end Statements
end

