-- ==== Sys2Proof/Laws/HostContract.lean ====
section
/-! SUPPORT. What the receiver's loops can do (spec 60_exceptions.md R153 to R156): one lemma per way a frame ends, and that
no loop's fuel runs out. -/

namespace Sys2Proof.Machine

/-- A frame takes at least one byte, and no more than there are (41_codec_fields.md R89). -/
theorem deframe_consumes {e : Byte} {bs : List Byte} {v : Verdict} {k : Nat} (h : deframe e bs = some (v, k)) :
    0 < k ∧ k ≤ bs.length := by
  unfold deframe at h
  repeat' split at h
  all_goals simp_all [frameLen, hdrLen, ctrlFrameLen]
  all_goals omega

/-- Two amounts of fuel above the number of bytes answer the same run. -/
theorem receivePacketFuel_enough (n m : Nat) (e : Expecting) (bs : List Byte) (hn : bs.length < n) (hm : bs.length < m) :
    receivePacketFuel n e bs = receivePacketFuel m e bs := by
  induction n generalizing m e bs with
  | zero => omega
  | succ n ih =>
    obtain ⟨m, rfl⟩ : ∃ k, m = k + 1 := ⟨m - 1, by omega⟩
    unfold receivePacketFuel
    split
    · rfl
    · rename_i v k hd
      have hk := deframe_consumes hd
      have hl : (bs.drop k).length < n ∧ (bs.drop k).length < m := by simp only [List.length_drop]; omega
      have := fun e' => ih m e' _ hl.1 hl.2
      simp only [this]

/-- A frame whose reply re-arms with the same sequence: the run goes on with the bytes after it. -/
theorem receivePacket_again {e same : Expecting} {bs : List Byte} {v : Verdict} {k : Nat} {is : List Instr}
    {m : ReceiverMove} (hd : deframe e.sn bs = some (v, k)) (hr : receiverReply v e = some (is, m))
    (hm : m = .sameSequence same ∨ ∃ n, m = .retryAfter n same) :
    receivePacket e bs =
      (receivePacket same (bs.drop k)).after (commandActions (rxFrameCommands e.sn (bs.take k)) ++ replyActions is m) := by
  have hk := deframe_consumes hd
  have hf := receivePacketFuel_enough bs.length ((bs.drop k).length + 1) same (bs.drop k)
    (by simp only [List.length_drop]; omega) (by omega)
  have h1 : receivePacket e bs = (receivePacketFuel bs.length same (bs.drop k)).after
      (commandActions (rxFrameCommands e.sn (bs.take k)) ++ replyActions is m) := by
    obtain rfl | ⟨n, rfl⟩ := hm <;> simp only [receivePacket, receivePacketFuel, hd, hr]
  rw [h1, hf, receivePacket]

/-- An accepted frame ends the run with its payload. -/
theorem receivePacket_accept {e : Expecting} {bs : List Byte} {k : Nat} (hd : deframe e.sn bs = some (.dataOk, k)) :
    receivePacket e bs =
      { actions := commandActions (rxFrameCommands e.sn (bs.take k) ++ [.txAck]),
        result := some (.payload ((bs.drop hdrLen).take payloadLen) (expectNew (seqNext e.sn))), rest := bs.drop k } := by
  simp [receivePacket, receivePacketFuel, hd, receiverReply, replyActions, commandActions]

/-- The mismatch that uses up the retry budget ends the run. -/
theorem receivePacket_fail {e : Expecting} {bs : List Byte} {v : Verdict} {k : Nat} {is : List Instr} {backoff : Bool}
    (hd : deframe e.sn bs = some (v, k)) (hr : receiverReply v e = some (is, .fail backoff)) :
    receivePacket e bs =
      { actions := commandActions (rxFrameCommands e.sn (bs.take k)) ++ replyActions is (.fail backoff),
        result := some (.protocolError backoff), rest := bs.drop k } := by
  simp only [receivePacket, receivePacketFuel, hd, hr]

/-- Two continuations that agree on how a run ends answer the same. -/
theorem HostRun.andThen_congr {α β : Type} {r : HostRun α} {f g : α → List Byte → HostRun β}
    (h : ∀ a, r.result = some a → f a r.rest = g a r.rest) : r.andThen f = r.andThen g := by
  unfold HostRun.andThen
  split
  · rfl
  · rename_i a ha
    rw [h a ha]

/-- A run with a continuation has ended only if both have, and its rest is the continuation's. -/
theorem HostRun.andThen_ended {α β : Type} {r : HostRun α} {f : α → List Byte → HostRun β} {b : β}
    (h : (r.andThen f).result = some b) :
    ∃ a, r.result = some a ∧ (f a r.rest).result = some b ∧ (r.andThen f).rest = (f a r.rest).rest := by
  unfold HostRun.andThen at h ⊢
  split at h
  · cases h
  · rename_i a ha
    exact ⟨a, ha, h, rfl⟩

/-- A packet that has ended took at least one byte. -/
theorem receivePacketFuel_shorter {n : Nat} {e : Expecting} {bs : List Byte} {a : PacketResult}
    (h : (receivePacketFuel n e bs).result = some a) : (receivePacketFuel n e bs).rest.length < bs.length := by
  induction n generalizing e bs with
  | zero => cases h
  | succ n ih =>
    unfold receivePacketFuel at h ⊢
    split at h
    · cases h
    · rename_i v k hd
      have hk := deframe_consumes hd
      have hl : (bs.drop k).length < bs.length := by simp only [List.length_drop]; omega
      dsimp only at h
      split at h
      · cases h
      · rename_i is m hr
        dsimp only
        cases m with
        | sameSequence same => exact (ih h).trans hl
        | retryAfter s same => exact (ih h).trans hl
        | accept next => exact hl
        | transferComplete => exact hl
        | cancelled => exact hl
        | fail backoff => exact hl

/-- The steady state with any two sufficient amounts of fuel. -/
theorem receiveSteadyFuel_enough (n m : Nat) (e : Expecting) (file : List Byte) (ts : List Nat) (bs : List Byte)
    (hn : bs.length < n) (hm : bs.length < m) : receiveSteadyFuel n e file ts bs = receiveSteadyFuel m e file ts bs := by
  induction n generalizing m e file bs with
  | zero => omega
  | succ n ih =>
    obtain ⟨m, rfl⟩ : ∃ k, m = k + 1 := ⟨m - 1, by omega⟩
    unfold receiveSteadyFuel
    refine HostRun.andThen_congr fun a ha => ?_
    have hs := receivePacketFuel_shorter ha
    rw [← receivePacket] at hs
    cases a with
    | payload bytes next => exact ih m next _ _ (by omega) (by omega)
    | complete => rfl
    | cancelled => rfl
    | protocolError backoff => rfl

/-- A steady state that has ended took at least one byte. -/
theorem receiveSteadyFuel_shorter {n : Nat} {e : Expecting} {file : List Byte} {ts : List Nat} {bs : List Byte}
    {a : SessionResult} (h : (receiveSteadyFuel n e file ts bs).result = some a) :
    (receiveSteadyFuel n e file ts bs).rest.length < bs.length := by
  induction n generalizing e file bs with
  | zero => cases h
  | succ n ih =>
    unfold receiveSteadyFuel at h ⊢
    obtain ⟨p, hp, hf, hr⟩ := HostRun.andThen_ended h
    have hs := receivePacketFuel_shorter hp
    rw [← receivePacket] at hs
    rw [hr]
    cases p with
    | payload bytes next => exact (ih hf).trans hs
    | complete => exact hs
    | cancelled => exact hs
    | protocolError backoff => exact hs

/-- A session with any two sufficient amounts of fuel. -/
theorem receiveSessionFuel_enough (n m : Nat) (ts : List Nat) (bs : List Byte) (hn : bs.length < n)
    (hm : bs.length < m) : receiveSessionFuel n ts bs = receiveSessionFuel m ts bs := by
  induction n generalizing m ts bs with
  | zero => omega
  | succ n ih =>
    obtain ⟨m, rfl⟩ : ∃ k, m = k + 1 := ⟨m - 1, by omega⟩
    cases bs with
    | nil => rfl
    | cons b bs =>
      unfold receiveSessionFuel
      refine congrArg _ (HostRun.andThen_congr fun a ha => ?_)
      have hs := receivePacketFuel_shorter ha
      rw [← receivePacket] at hs
      cases a with
      | payload bytes next => rfl
      | complete => exact ih m _ _ (by omega) (by omega)
      | cancelled => rfl
      | protocolError backoff => rfl

/-- A session that has ended took at least one byte. -/
theorem receiveSessionFuel_shorter {n : Nat} {ts : List Nat} {bs : List Byte} {a : SessionResult}
    (h : (receiveSessionFuel n ts bs).result = some a) : (receiveSessionFuel n ts bs).rest.length < bs.length := by
  induction n generalizing ts bs with
  | zero => cases h
  | succ n ih =>
    cases bs with
    | nil => cases h
    | cons b bs =>
      unfold receiveSessionFuel at h ⊢
      obtain ⟨p, hp, hf, hr⟩ := HostRun.andThen_ended h
      have hs := receivePacketFuel_shorter hp
      rw [← receivePacket] at hs
      refine lt_of_eq_of_lt (congrArg List.length hr) ?_
      cases p with
      | payload bytes next => exact (receiveSteadyFuel_shorter hf).trans hs
      | complete => exact (ih hf).trans hs
      | cancelled => exact hs
      | protocolError backoff => exact hs

/-- The outer loop with any two sufficient amounts of fuel. -/
theorem receiveSessions_enough (n m : Nat) (ts : List Nat) (bs : List Byte) (hn : bs.length < n)
    (hm : bs.length < m) : receiveSessions n ts bs = receiveSessions m ts bs := by
  induction n generalizing m ts bs with
  | zero => omega
  | succ n ih =>
    obtain ⟨m, rfl⟩ : ∃ k, m = k + 1 := ⟨m - 1, by omega⟩
    unfold receiveSessions
    refine HostRun.andThen_congr fun a ha => ?_
    have hs := receiveSessionFuel_shorter ha
    rw [← receiveSession] at hs
    cases a with
    | finished file => rfl
    | restart re later =>
      exact congrArg (HostRun.after (restartActions re))
        (ih m later (receiveSession ts bs).rest (by omega) (by omega))
    | protocolError => rfl

end Sys2Proof.Machine
end

