-- ==== Sys2Proof/Laws/State.lean ====
section
/-! SUPPORT. What each named update of a state does to each field: one lemma per field per update, true by definition,
so that no proof unfolds a record update. -/

namespace Sys2Proof.Machine

variable (s : State)

@[simp] theorem State.emit_crc (xs : List Byte) : (s.emit xs).crc = s.crc := rfl
@[simp] theorem State.emit_txcrc (xs : List Byte) : (s.emit xs).txcrc = s.txcrc := rfl
@[simp] theorem State.emit_txcnt (xs : List Byte) : (s.emit xs).txcnt = s.txcnt := rfl
@[simp] theorem State.emit_rxcrc (xs : List Byte) : (s.emit xs).rxcrc = s.rxcrc := rfl
@[simp] theorem State.emit_rxrcrc (xs : List Byte) : (s.emit xs).rxrcrc = s.rxrcrc := rfl
@[simp] theorem State.emit_rxcnt (xs : List Byte) : (s.emit xs).rxcnt = s.rxcnt := rfl
@[simp] theorem State.emit_rxexp (xs : List Byte) : (s.emit xs).rxexp = s.rxexp := rfl
@[simp] theorem State.emit_rxctl (xs : List Byte) : (s.emit xs).rxctl = s.rxctl := rfl
@[simp] theorem State.emit_rxseq (xs : List Byte) : (s.emit xs).rxseq = s.rxseq := rfl
@[simp] theorem State.emit_rxcpl (xs : List Byte) : (s.emit xs).rxcpl = s.rxcpl := rfl
@[simp] theorem State.emit_respb (xs : List Byte) : (s.emit xs).respb = s.respb := rfl
@[simp] theorem State.emit_txst (xs : List Byte) : (s.emit xs).txst = s.txst := rfl
@[simp] theorem State.emit_rxst (xs : List Byte) : (s.emit xs).rxst = s.rxst := rfl
@[simp] theorem State.emit_rxv (xs : List Byte) : (s.emit xs).rxv = s.rxv := rfl
@[simp] theorem State.emit_resp (xs : List Byte) : (s.emit xs).resp = s.resp := rfl
@[simp] theorem State.emit_err (xs : List Byte) : (s.emit xs).err = s.err := rfl
@[simp] theorem State.emit_errs (xs : List Byte) : (s.emit xs).errs = s.errs := rfl
@[simp] theorem State.emit_txout (xs : List Byte) : (s.emit xs).txout = s.txout ++ xs := rfl
@[simp] theorem State.emit_phase (xs : List Byte) : (s.emit xs).phase = s.phase := rfl
@[simp] theorem State.emit_inputs (xs : List Byte) : (s.emit xs).inputs = s.inputs := rfl

@[simp] theorem State.withError_crc (code : ErrCode) : (s.withError code).crc = s.crc := rfl
@[simp] theorem State.withError_txcrc (code : ErrCode) : (s.withError code).txcrc = s.txcrc := rfl
@[simp] theorem State.withError_txcnt (code : ErrCode) : (s.withError code).txcnt = s.txcnt := rfl
@[simp] theorem State.withError_rxcrc (code : ErrCode) : (s.withError code).rxcrc = s.rxcrc := rfl
@[simp] theorem State.withError_rxrcrc (code : ErrCode) : (s.withError code).rxrcrc = s.rxrcrc := rfl
@[simp] theorem State.withError_rxcnt (code : ErrCode) : (s.withError code).rxcnt = s.rxcnt := rfl
@[simp] theorem State.withError_rxexp (code : ErrCode) : (s.withError code).rxexp = s.rxexp := rfl
@[simp] theorem State.withError_rxctl (code : ErrCode) : (s.withError code).rxctl = s.rxctl := rfl
@[simp] theorem State.withError_rxseq (code : ErrCode) : (s.withError code).rxseq = s.rxseq := rfl
@[simp] theorem State.withError_rxcpl (code : ErrCode) : (s.withError code).rxcpl = s.rxcpl := rfl
@[simp] theorem State.withError_respb (code : ErrCode) : (s.withError code).respb = s.respb := rfl
@[simp] theorem State.withError_txst (code : ErrCode) : (s.withError code).txst = s.txst := rfl
@[simp] theorem State.withError_rxst (code : ErrCode) : (s.withError code).rxst = s.rxst := rfl
@[simp] theorem State.withError_rxv (code : ErrCode) : (s.withError code).rxv = s.rxv := rfl
@[simp] theorem State.withError_resp (code : ErrCode) : (s.withError code).resp = s.resp := rfl
@[simp] theorem State.withError_err (code : ErrCode) : (s.withError code).err = code := rfl
@[simp] theorem State.withError_errs (code : ErrCode) : (s.withError code).errs = true := rfl
@[simp] theorem State.withError_txout (code : ErrCode) : (s.withError code).txout = s.txout := rfl
@[simp] theorem State.withError_phase (code : ErrCode) : (s.withError code).phase = s.phase := rfl
@[simp] theorem State.withError_inputs (code : ErrCode) : (s.withError code).inputs = s.inputs := rfl

@[simp] theorem State.withOk_crc : s.withOk.crc = s.crc := rfl
@[simp] theorem State.withOk_txcrc : s.withOk.txcrc = s.txcrc := rfl
@[simp] theorem State.withOk_txcnt : s.withOk.txcnt = s.txcnt := rfl
@[simp] theorem State.withOk_rxcrc : s.withOk.rxcrc = s.rxcrc := rfl
@[simp] theorem State.withOk_rxrcrc : s.withOk.rxrcrc = s.rxrcrc := rfl
@[simp] theorem State.withOk_rxcnt : s.withOk.rxcnt = s.rxcnt := rfl
@[simp] theorem State.withOk_rxexp : s.withOk.rxexp = s.rxexp := rfl
@[simp] theorem State.withOk_rxctl : s.withOk.rxctl = s.rxctl := rfl
@[simp] theorem State.withOk_rxseq : s.withOk.rxseq = s.rxseq := rfl
@[simp] theorem State.withOk_rxcpl : s.withOk.rxcpl = s.rxcpl := rfl
@[simp] theorem State.withOk_respb : s.withOk.respb = s.respb := rfl
@[simp] theorem State.withOk_txst : s.withOk.txst = s.txst := rfl
@[simp] theorem State.withOk_rxst : s.withOk.rxst = s.rxst := rfl
@[simp] theorem State.withOk_rxv : s.withOk.rxv = s.rxv := rfl
@[simp] theorem State.withOk_resp : s.withOk.resp = s.resp := rfl
@[simp] theorem State.withOk_err : s.withOk.err = .ok := rfl
@[simp] theorem State.withOk_errs : s.withOk.errs = s.errs := rfl
@[simp] theorem State.withOk_txout : s.withOk.txout = s.txout := rfl
@[simp] theorem State.withOk_phase : s.withOk.phase = s.phase := rfl
@[simp] theorem State.withOk_inputs : s.withOk.inputs = s.inputs := rfl

@[simp] theorem State.resetRegisters_crc : s.resetRegisters.crc = 0x0000#16 := rfl
@[simp] theorem State.resetRegisters_txcrc : s.resetRegisters.txcrc = 0x0000#16 := rfl
@[simp] theorem State.resetRegisters_txcnt : s.resetRegisters.txcnt = 0x00#8 := rfl
@[simp] theorem State.resetRegisters_rxcrc : s.resetRegisters.rxcrc = 0x0000#16 := rfl
@[simp] theorem State.resetRegisters_rxrcrc : s.resetRegisters.rxrcrc = 0x0000#16 := rfl
@[simp] theorem State.resetRegisters_rxcnt : s.resetRegisters.rxcnt = 0x00#8 := rfl
@[simp] theorem State.resetRegisters_rxexp : s.resetRegisters.rxexp = 0x00#8 := rfl
@[simp] theorem State.resetRegisters_rxctl : s.resetRegisters.rxctl = 0x00#8 := rfl
@[simp] theorem State.resetRegisters_rxseq : s.resetRegisters.rxseq = 0x00#8 := rfl
@[simp] theorem State.resetRegisters_rxcpl : s.resetRegisters.rxcpl = 0x00#8 := rfl
@[simp] theorem State.resetRegisters_respb : s.resetRegisters.respb = 0x00#8 := rfl
@[simp] theorem State.resetRegisters_txst : s.resetRegisters.txst = .idle := rfl
@[simp] theorem State.resetRegisters_rxst : s.resetRegisters.rxst = .idle := rfl
@[simp] theorem State.resetRegisters_rxv : s.resetRegisters.rxv = .none := rfl
@[simp] theorem State.resetRegisters_resp : s.resetRegisters.resp = .none := rfl
@[simp] theorem State.resetRegisters_err : s.resetRegisters.err = .ok := rfl
@[simp] theorem State.resetRegisters_errs : s.resetRegisters.errs = false := rfl
@[simp] theorem State.resetRegisters_txout : s.resetRegisters.txout = s.txout := rfl
@[simp] theorem State.resetRegisters_phase : s.resetRegisters.phase = s.phase := rfl
@[simp] theorem State.resetRegisters_inputs : s.resetRegisters.inputs = s.inputs := rfl

@[simp] theorem State.withInputs_crc (rest : List PortEvent) : (s.withInputs rest).crc = s.crc := rfl
@[simp] theorem State.withInputs_txcrc (rest : List PortEvent) : (s.withInputs rest).txcrc = s.txcrc := rfl
@[simp] theorem State.withInputs_txcnt (rest : List PortEvent) : (s.withInputs rest).txcnt = s.txcnt := rfl
@[simp] theorem State.withInputs_rxcrc (rest : List PortEvent) : (s.withInputs rest).rxcrc = s.rxcrc := rfl
@[simp] theorem State.withInputs_rxrcrc (rest : List PortEvent) : (s.withInputs rest).rxrcrc = s.rxrcrc := rfl
@[simp] theorem State.withInputs_rxcnt (rest : List PortEvent) : (s.withInputs rest).rxcnt = s.rxcnt := rfl
@[simp] theorem State.withInputs_rxexp (rest : List PortEvent) : (s.withInputs rest).rxexp = s.rxexp := rfl
@[simp] theorem State.withInputs_rxctl (rest : List PortEvent) : (s.withInputs rest).rxctl = s.rxctl := rfl
@[simp] theorem State.withInputs_rxseq (rest : List PortEvent) : (s.withInputs rest).rxseq = s.rxseq := rfl
@[simp] theorem State.withInputs_rxcpl (rest : List PortEvent) : (s.withInputs rest).rxcpl = s.rxcpl := rfl
@[simp] theorem State.withInputs_respb (rest : List PortEvent) : (s.withInputs rest).respb = s.respb := rfl
@[simp] theorem State.withInputs_txst (rest : List PortEvent) : (s.withInputs rest).txst = s.txst := rfl
@[simp] theorem State.withInputs_rxst (rest : List PortEvent) : (s.withInputs rest).rxst = s.rxst := rfl
@[simp] theorem State.withInputs_rxv (rest : List PortEvent) : (s.withInputs rest).rxv = s.rxv := rfl
@[simp] theorem State.withInputs_resp (rest : List PortEvent) : (s.withInputs rest).resp = s.resp := rfl
@[simp] theorem State.withInputs_err (rest : List PortEvent) : (s.withInputs rest).err = s.err := rfl
@[simp] theorem State.withInputs_errs (rest : List PortEvent) : (s.withInputs rest).errs = s.errs := rfl
@[simp] theorem State.withInputs_txout (rest : List PortEvent) : (s.withInputs rest).txout = s.txout := rfl
@[simp] theorem State.withInputs_phase (rest : List PortEvent) : (s.withInputs rest).phase = s.phase := rfl
@[simp] theorem State.withInputs_inputs (rest : List PortEvent) : (s.withInputs rest).inputs = rest := rfl

@[simp] theorem State.presentWord_crc (w : Half) : (s.presentWord w).crc = s.crc := rfl
@[simp] theorem State.presentWord_txcrc (w : Half) : (s.presentWord w).txcrc = s.txcrc := rfl
@[simp] theorem State.presentWord_txcnt (w : Half) : (s.presentWord w).txcnt = s.txcnt := rfl
@[simp] theorem State.presentWord_rxcrc (w : Half) : (s.presentWord w).rxcrc = s.rxcrc := rfl
@[simp] theorem State.presentWord_rxrcrc (w : Half) : (s.presentWord w).rxrcrc = s.rxrcrc := rfl
@[simp] theorem State.presentWord_rxcnt (w : Half) : (s.presentWord w).rxcnt = s.rxcnt := rfl
@[simp] theorem State.presentWord_rxexp (w : Half) : (s.presentWord w).rxexp = s.rxexp := rfl
@[simp] theorem State.presentWord_rxctl (w : Half) : (s.presentWord w).rxctl = s.rxctl := rfl
@[simp] theorem State.presentWord_rxseq (w : Half) : (s.presentWord w).rxseq = s.rxseq := rfl
@[simp] theorem State.presentWord_rxcpl (w : Half) : (s.presentWord w).rxcpl = s.rxcpl := rfl
@[simp] theorem State.presentWord_respb (w : Half) : (s.presentWord w).respb = s.respb := rfl
@[simp] theorem State.presentWord_txst (w : Half) : (s.presentWord w).txst = s.txst := rfl
@[simp] theorem State.presentWord_rxst (w : Half) : (s.presentWord w).rxst = s.rxst := rfl
@[simp] theorem State.presentWord_rxv (w : Half) : (s.presentWord w).rxv = s.rxv := rfl
@[simp] theorem State.presentWord_resp (w : Half) : (s.presentWord w).resp = s.resp := rfl
@[simp] theorem State.presentWord_err (w : Half) : (s.presentWord w).err = s.err := rfl
@[simp] theorem State.presentWord_errs (w : Half) : (s.presentWord w).errs = s.errs := rfl
@[simp] theorem State.presentWord_txout (w : Half) : (s.presentWord w).txout = s.txout := rfl
@[simp] theorem State.presentWord_phase (w : Half) : (s.presentWord w).phase = .released := rfl
@[simp] theorem State.presentWord_inputs (w : Half) : (s.presentWord w).inputs = .command w :: s.inputs := rfl

end Sys2Proof.Machine
end

