-- ==== Sys2Proof/Laws/Ops.lean ====
section
/-! SUPPORT. What each shared operation can do, said once: the refusal and the completion of a command, the checks, the
codec's functions, and the step. Callers cite these and unfold nothing. -/

namespace Sys2Proof.Machine

/-! ### Ending a command -/

theorem raiseCmdError_next {code : ErrCode} {s t : State} :
    raiseCmdError code s = .next t ↔ s.withError code = t := by
  simp [raiseCmdError]

theorem complete_next {s t : State} : complete s = .next t ↔ s.withOk = t := by
  simp [complete]

theorem unlessTxBusy_next {s done t : State} (h : unlessTxBusy s done = .next t) :
    (s.txst = .pay ∧ t = s.withError .busy) ∨ (s.txst = .idle ∧ t = done.withOk) := by
  unfold unlessTxBusy at h
  split at h
  · exact .inl ⟨‹_›, (raiseCmdError_next.mp h).symm⟩
  · exact .inr ⟨‹_›, (complete_next.mp h).symm⟩

theorem ifTxBusy_next {s t : State} {body : Host.Outcome State Fault Refusal} (h : ifTxBusy s body = .next t) :
    (s.txst = .idle ∧ t = s.withError .state) ∨ (s.txst = .pay ∧ body = .next t) := by
  unfold ifTxBusy at h
  split at h
  · exact .inl ⟨‹_›, (raiseCmdError_next.mp h).symm⟩
  · exact .inr ⟨‹_›, h⟩

theorem emitControl_next {code : Byte} {s t : State} (h : emitControl code s = .next t) :
    (s.txst = .pay ∧ t = s.withError .busy) ∨ (s.txst = .idle ∧ t = (s.emit [code]).withOk) :=
  unlessTxBusy_next h

/-! ### Commands that can only complete -/

theorem execTxData_next {b : Byte} {s t : State} (h : execTxData b s = .next t) :
    (s.txst = .idle ∧ t = s.withError .state) ∨
    (s.txst = .pay ∧ s.txcnt = payloadLenByte ∧ t = s.withError .full) ∨
    (s.txst = .pay ∧ s.txcnt ≠ payloadLenByte ∧
      t = State.withOk (State.emit [b] { s with txcrc := upd16 s.txcrc b, txcnt := s.txcnt + 1 })) := by
  rcases ifTxBusy_next h with h | ⟨hp, h⟩
  · exact .inl h
  · split at h
    · exact .inr (.inl ⟨hp, ‹_›, (raiseCmdError_next.mp h).symm⟩)
    · exact .inr (.inr ⟨hp, ‹_›, (complete_next.mp h).symm⟩)

theorem execRxByte_next {b : Byte} {s t : State} (h : execRxByte b s = .next t) :
    (s.rxst = .idle ∧ t = s.withError .state) ∨
    (s.rxst = .ctl ∧ t = (rxCtl b s).withOk) ∨
    (s.rxst = .seq ∧ t = (rxSeq b s).withOk) ∨
    (s.rxst = .cpl ∧ t = (rxCpl b s).withOk) ∨
    (s.rxst = .pay ∧ t = (rxPay b s).withOk) ∨
    (s.rxst = .crcH ∧ t = (rxCrcH b s).withOk) ∨
    (s.rxst = .crcL ∧ t = (rxCrcL b s).withOk) := by
  unfold execRxByte at h
  split at h
  all_goals simp_all [raiseCmdError, complete]

/-! ### The codec's functions -/

@[simp] theorem crcFold_nil (c : Half) : crcFold c [] = c := rfl

@[simp] theorem crcFold_cons (c : Half) (b : Byte) (xs : List Byte) :
    crcFold c (b :: xs) = crcFold (upd16 c b) xs := rfl

@[simp] theorem padding_length (n : Nat) : (padding n).length = 128 - n := by
  simp [padding, payloadLen]

theorem pad_length {xs : List Byte} (h : xs.length ≤ 128) : (pad xs).length = 128 := by
  simp only [pad, List.length_append, padding_length]
  omega

@[simp] theorem crcField_length (c : Half) : (crcField c).length = 2 := rfl

theorem ctlClass_verdict_none {b : Byte} : (ctlClass b).verdict = none ↔ b = sohCode := by
  unfold ctlClass
  repeat' split
  all_goals simp_all [CtlClass.verdict]

/-! ### The command port and the step -/

theorem performWord_next {w : Half} {s t : State} (h : performWord w s = .next t) :
    (∃ i, decode w = .ok i ∧ exec i s = .next t) ∨ (∃ e, decode w = .error e ∧ t = s.withError .illegal) := by
  unfold performWord at h
  split at h
  · exact .inl ⟨_, ‹_›, h⟩
  · exact .inr ⟨_, ‹_›, (raiseCmdError_next.mp h).symm⟩

/-- Everything a step that answers a next state can have done. -/
theorem step_next {s t : State} (h : step s = .next t) :
    (s.inputs = [] ∧ t = s) ∨
    (∃ level rest, s.inputs = .resetLine level :: rest ∧ t = (s.withInputs rest).setResetLine level) ∨
    (∃ w rest, s.inputs = .command w :: rest ∧ s.phase = .asserted ∧ t = s.withInputs rest) ∨
    (∃ w rest, s.inputs = .command w :: rest ∧ s.phase = .released ∧
      performWord w (s.withInputs rest) = .next t) := by
  unfold step stepPort at h
  split at h
  · simp_all
  · rename_i e rest he
    cases e with
    | resetLine level => exact .inr (.inl ⟨level, rest, he, by simpa [takeInput] using h.symm⟩)
    | command w =>
      simp only [takeInput, State.withInputs_phase] at h
      split at h
      · exact .inr (.inr (.inr ⟨w, rest, he, ‹_›, h⟩))
      · exact .inr (.inr (.inl ⟨w, rest, he, ‹_›, by simpa using h.symm⟩))
      · cases h

/-- The reset input's two effects, and its two cases without one. -/
theorem setResetLine_cases (level : Bool) (s : State) :
    (level = true ∧ s.setResetLine level = { s.resetRegisters with phase := .asserted }) ∨
    (level = false ∧ s.phase = .asserted ∧ s.setResetLine level = { s.resetRegisters with phase := .released }) ∨
    (level = false ∧ s.phase ≠ .asserted ∧ s.setResetLine level = s) := by
  unfold State.setResetLine
  cases level <;> cases h : s.phase <;> simp_all

end Sys2Proof.Machine
end

