-- ==== Sys2Proof/Laws/PerInstr.lean ====
section
/-! SUPPORT. Statements about every command as syntax, one lemma per constructor: the word of each command has exactly
the command's fields and passes both checks of 30_encoding.md R63. -/

/-- The word of a command has its OP and ARG in the places of R60, and is well formed (R63). -/
def Sys2Proof.Laws.EncodingWellFormed.Statement (i : Sys2Proof.Instr) : Prop :=
  Sys2Proof.Cmd16.ofWord (Sys2Proof.encode i) = Sys2Proof.fieldsOf i ∧ (Sys2Proof.fieldsOf i).wellFormed = true

namespace Sys2Proof.Laws

/-- The fields of a word made of two fields are these fields (R60). -/
theorem ofWord_toWord (c : Cmd16) : Cmd16.ofWord c.toWord = c := by
  obtain ⟨op, arg⟩ := c
  simp only [Cmd16.ofWord, Cmd16.toWord, opOf, argOf, Cmd16.mk.injEq]
  constructor
  · ext k hk
    have h8 : 8 + k < 16 := by omega
    simp [BitVec.getElem_extractLsb', hk, h8]
  · ext k hk
    have h16 : k < 16 := by omega
    simp [BitVec.getElem_extractLsb', hk, h16]

theorem EncodingWellFormed.sysReset : EncodingWellFormed.Statement .sysReset := ⟨ofWord_toWord _, by decide⟩
theorem EncodingWellFormed.crcClr : EncodingWellFormed.Statement .crcClr := ⟨ofWord_toWord _, by decide⟩
theorem EncodingWellFormed.crcByte (b : Byte) : EncodingWellFormed.Statement (.crcByte b) := ⟨ofWord_toWord _, rfl⟩
theorem EncodingWellFormed.txSoh (sn : Byte) : EncodingWellFormed.Statement (.txSoh sn) := ⟨ofWord_toWord _, rfl⟩
theorem EncodingWellFormed.txData (b : Byte) : EncodingWellFormed.Statement (.txData b) := ⟨ofWord_toWord _, rfl⟩
theorem EncodingWellFormed.txEnd : EncodingWellFormed.Statement .txEnd := ⟨ofWord_toWord _, by decide⟩
theorem EncodingWellFormed.txAck : EncodingWellFormed.Statement .txAck := ⟨ofWord_toWord _, by decide⟩
theorem EncodingWellFormed.txNak : EncodingWellFormed.Statement .txNak := ⟨ofWord_toWord _, by decide⟩
theorem EncodingWellFormed.txEot : EncodingWellFormed.Statement .txEot := ⟨ofWord_toWord _, by decide⟩
theorem EncodingWellFormed.txEtb : EncodingWellFormed.Statement .txEtb := ⟨ofWord_toWord _, by decide⟩
theorem EncodingWellFormed.txCan : EncodingWellFormed.Statement .txCan := ⟨ofWord_toWord _, by decide⟩
theorem EncodingWellFormed.txSync : EncodingWellFormed.Statement .txSync := ⟨ofWord_toWord _, by decide⟩
theorem EncodingWellFormed.rxStart (e : Byte) : EncodingWellFormed.Statement (.rxStart e) := ⟨ofWord_toWord _, rfl⟩
theorem EncodingWellFormed.rxByte (b : Byte) : EncodingWellFormed.Statement (.rxByte b) := ⟨ofWord_toWord _, rfl⟩
theorem EncodingWellFormed.rxResp (r : Byte) : EncodingWellFormed.Statement (.rxResp r) := ⟨ofWord_toWord _, rfl⟩

end Sys2Proof.Laws
end

