-- ==== Sys2Proof/Tests/Slice0.lean ====
section
/-! SUPPORT. The model's own tests. Expected values come from spec/95_test_vectors.md (the vector's id is named), from
opcode_table.json, or from the examples in the command rules; none was taken from the model. The last part holds, for
every obligation with hypotheses, witnesses that meet them. -/

namespace Sys2Proof.Tests

open Sys2Proof.Machine Sys2Proof.Claims

/-- The next state of an outcome, if there is one. -/
def nextOf : Host.Outcome State Fault Refusal → Option State
  | .next s => some s
  | .fault _ => none
  | .refused _ => none

/-- One word performed, then one view of the state. -/
def view {α : Type} (w : Half) (s : State) (f : State → α) : Option α := (nextOf (performWord w s)).map f

/-- Some words performed in order. -/
def afterWords : List Half → State → State
  | [], s => s
  | w :: ws, s => afterWords ws ((nextOf (performWord w s)).getD s)

/-- A TX frame in progress, V-TX-1. -/
def txBusy : State := { State.reset with txst := .pay, txout := [0x01, 0x01, 0xFE] }

/-- A TX frame that holds 128 payload bytes, as before V-TX-8. -/
def txFull : State := { txBusy with txcnt := 128 }

/-- A deframer armed for sequence 1 in a given state. -/
def rxIn (r : RxState) : State := { State.reset with rxexp := 0x01, rxseq := 0x01, rxst := r }

/-- The CRC fold over plain numbers, each running value forced before the next byte, so that the kernel can run it. -/
def forcedFold : Nat → List Byte → Nat
  | n, [] => n
  | 0, b :: bs => forcedFold (upd16 0 b).toNat bs
  | n + 1, b :: bs => forcedFold (upd16 (BitVec.ofNat 16 (n + 1)) b).toNat bs

theorem forcedFold_eq (xs : List Byte) (c : Half) : forcedFold c.toNat xs = (crcFold c xs).toNat := by
  induction xs generalizing c with
  | nil => simp [forcedFold, crcFold]
  | cons b bs ih =>
    have h : c = BitVec.ofNat 16 c.toNat := by simp
    conv_rhs => rw [h]
    show _ = (crcFold (upd16 (BitVec.ofNat 16 c.toNat) b) bs).toNat
    rw [← ih]
    cases c.toNat <;> rfl

theorem crcFold_eq {c d : Half} {xs : List Byte} (h : forcedFold c.toNat xs = d.toNat) : crcFold c xs = d :=
  BitVec.eq_of_toNat_eq (forcedFold_eq xs c ▸ h)

/-! ### Well-formed words (30_encoding.md R63, R64) -/

theorem test_wf_zeroArg : (Cmd16.wellFormed { op := 0x22, arg := 0x00 }) = true := by decide
theorem test_wf_operand : (Cmd16.wellFormed { op := 0x41, arg := 0xFF }) = true := by decide
theorem test_illformed_op : (Cmd16.opAssigned { op := 0x12, arg := 0x00 }) = false := by decide
theorem test_illformed_op_word : (Cmd16.wellFormed { op := 0x00, arg := 0x00 }) = false := by decide
theorem test_illformed_arg : (Cmd16.argAllowed { op := 0x30, arg := 0x06 }) = false := by decide
theorem test_illformed_arg_word : (Cmd16.wellFormed { op := 0x01, arg := 0x01 }) = false := by decide

/-! ### Decoding (the words of opcode_table.json, bit by bit) -/

theorem test_decode_sysReset : decode 0b0000000100000000#16 = .ok .sysReset := rfl
theorem test_decode_crcClr : decode 0b0001000000000000#16 = .ok .crcClr := rfl
theorem test_decode_crcByte : decode 0b0001000101011010#16 = .ok (.crcByte 0x5A) := rfl
theorem test_decode_txSoh : decode 0b0010000000000101#16 = .ok (.txSoh 0x05) := rfl
theorem test_decode_txData : decode 0b0010000101010101#16 = .ok (.txData 0x55) := rfl
theorem test_decode_txEnd : decode 0b0010001000000000#16 = .ok .txEnd := rfl
theorem test_decode_txAck : decode 0b0011000000000000#16 = .ok .txAck := rfl
theorem test_decode_txNak : decode 0b0011000100000000#16 = .ok .txNak := rfl
theorem test_decode_txEot : decode 0b0011001000000000#16 = .ok .txEot := rfl
theorem test_decode_txEtb : decode 0b0011001100000000#16 = .ok .txEtb := rfl
theorem test_decode_txCan : decode 0b0011010000000000#16 = .ok .txCan := rfl
theorem test_decode_txSync : decode 0b0011010100000000#16 = .ok .txSync := rfl
theorem test_decode_rxStart : decode 0b0100000000000001#16 = .ok (.rxStart 0x01) := rfl
theorem test_decode_rxByte : decode 0b0100000111111110#16 = .ok (.rxByte 0xFE) := rfl
theorem test_decode_rxResp : decode 0b0100001001000011#16 = .ok (.rxResp 0x43) := rfl
/-- V-ERR-1: the all-zero word is illegal. -/
theorem test_decode_zero_word : decode 0x0000#16 = .error (.unassignedOp 0x00) := rfl
/-- V-ERR-2. -/
theorem test_decode_ones_word : decode 0xFFFF#16 = .error (.unassignedOp 0xFF) := rfl
/-- V-TX-20: TX.ACK with ARG 06. -/
theorem test_decode_ack_arg : decode 0x3006#16 = .error (.nonzeroArg "TX.ACK" 0x06) := rfl
theorem test_decodeTableWord : decodeTableWord 16 0x42FF = some (.rxResp 0xFF) := rfl
theorem test_encode_txSoh : encode (.txSoh 0xFF) = 0x20FF#16 := rfl

/-! ### The CRC function (95_test_vectors.md section 2) -/

/-- V-UPD-6 and V-UPD-8. -/
theorem test_upd16 : upd16 0xFFFF 0x00 = 0xE1F0#16 ∧ upd16 0x8000 0x00 = 0x9188#16 := by decide
/-- W1. -/
theorem test_crc16_worked : crc16 [0x01, 0x02, 0x03, 0x04] = 0x0D03#16 := crcFold_eq (by decide +kernel)
/-- V-CRC-9, "123456789". -/
theorem test_crc16_digits : crc16 [0x31, 0x32, 0x33, 0x34, 0x35, 0x36, 0x37, 0x38, 0x39] = 0x31C3#16 :=
  crcFold_eq (by decide +kernel)
/-- V-CRC-17. -/
theorem test_crc16_padded : crc16 (pad [0x01, 0x02, 0x03, 0x04]) = 0xC901#16 := crcFold_eq (by decide +kernel)

/-! ### Codec functions (section 3) -/

/-- V-FLD-4 and V-FLD-7. -/
theorem test_hdr : cpl 0x80 = 0x7F#8 ∧ hdr sohCode 0xFF = [0x01, 0xFF, 0x00] := by decide
/-- V-FLD-12 and V-FLD-13. -/
theorem test_crcField : crcField 0x000A = [0x00, 0x0A] ∧ crcUnfield 0xC9 0x01 = 0xC901#16 := by decide
/-- V-FLD-17. -/
theorem test_ctlClass : [0x00, 0x02, 0x06, 0x15, 0x43, 0xFF].map ctlClass = List.replicate 6 .badCtl := by decide
/-- V-FLD-23. -/
theorem test_respClass : [0x18, 0x04, 0x17, 0x01, 0x00, 0xFF].map respClass = List.replicate 6 .other := by decide
/-- V-FLD-20 and V-FLD-21. -/
theorem test_hdrOk : hdrOk 0x02 0x01 0xFE = false ∧ hdrOk 0x00 0x00 0xFF = true := by decide
/-- V-FLD-24. -/
theorem test_seqNext : seqNext 0xFF = 0x00#8 ∧ seqNext 0x01 = 0x02#8 := by decide
/-- V-FLD-28. -/
theorem test_deframe_incomplete : deframe 0x01 [0x01, 0x01] = none := by decide
/-! ### The commands, one step each (sections 2 and 4 to 8) -/

/-- V-SYS-1: SYS.RESET in a TX frame; TXOUT keeps the truncated frame. -/
theorem test_sysReset : view 0x0100 { txBusy with txcnt := 3, crc := 0x0D03, errs := true } (fun s => (s.status, s.txcnt, s.crc, s.txout)) =
    some (0x0000, 0x00, 0x0000, [0x01, 0x01, 0xFE]) := by decide
/-- V-ERR-7: SYS.RESET with ARG 01 resets nothing. -/
theorem test_sysReset_illegal : view 0x0101 { State.reset with crc := 0x1021, errs := true } (fun s => (s.status, s.crc)) =
    some (0x0009, 0x1021) := by decide
/-- Example of R73. -/
theorem test_crcClr : view 0x1000 { State.reset with crc := 0x0D03 } (fun s => (s.crc, s.status)) = some (0x0000, 0x0000) := by
  decide
/-- V-CMD-CRC-2. -/
theorem test_crcByte : view 0x1101 State.reset (fun s => (s.crc, s.status)) = some (0x1021, 0x0000) := by decide
/-- V-CMD-CRC-4: TXCRC is untouched inside a frame. -/
theorem test_crcByte_inFrame : view 0x11FF { txBusy with txcrc := 0x1021 } (fun s => (s.crc, s.txcrc, s.status)) =
    some (0x1EF0, 0x1021, 0x0800) := by decide
/-- V-TX-1. -/
theorem test_txSoh : view 0x2001 State.reset (fun s => (s.txout, s.txcnt, s.txcrc, s.status)) =
    some ([0x01, 0x01, 0xFE], 0x00, 0x0000, 0x0800) := by decide
/-- V-TX-11. -/
theorem test_txSoh_busy : view 0x2002 txBusy (fun s => (s.txout, s.status)) = some ([0x01, 0x01, 0xFE], 0x080B) := by decide
/-- V-TX-2. -/
theorem test_txData : view 0x2101 txBusy (fun s => (s.txout, s.txcnt, s.txcrc, s.status)) =
    some ([0x01, 0x01, 0xFE, 0x01], 0x01, 0x1021, 0x0800) := by decide
/-- V-TX-8: the 129th byte. -/
theorem test_txData_full : view 0x2155 txFull (fun s => (s.txout, s.txcnt, s.status)) =
    some ([0x01, 0x01, 0xFE], 0x80, 0x080C) := by decide
/-- V-TX-7: the end of a full frame. -/
theorem test_txEnd : view 0x2200 { txFull with txcrc := 0x5B67 } (fun s => (s.txout, s.txcnt, s.txcrc, s.status)) =
    some ([0x01, 0x01, 0xFE, 0x5B, 0x67], 0x80, 0x5B67, 0x0000) := by decide
/-- V-TX-4: the CRC over 124 pad bytes. -/
theorem test_txEnd_padded : State.paddedTxcrc { txBusy with txcnt := 4, txcrc := 0x0D03 } = 0xC901#16 ∧
    padding 4 = List.replicate 124 0x00 := ⟨crcFold_eq (by decide +kernel), rfl⟩
/-- V-TX-14. -/
theorem test_txAck : view 0x3000 State.reset (fun s => (s.txout, s.status)) = some ([0x06], 0x0000) := by decide
/-- V-TX-12. -/
theorem test_txAck_busy : view 0x3000 txBusy (fun s => (s.txout, s.status)) = some ([0x01, 0x01, 0xFE], 0x080B) := by decide
/-- V-TX-15. -/
theorem test_txNak : view 0x3100 State.reset (fun s => (s.txout, s.status)) = some ([0x15], 0x0000) := by decide
/-- V-TX-16. -/
theorem test_txEot : view 0x3200 State.reset (fun s => (s.txout, s.status)) = some ([0x04], 0x0000) := by decide
/-- V-TX-17. -/
theorem test_txEtb : view 0x3300 State.reset (fun s => (s.txout, s.status)) = some ([0x17], 0x0000) := by decide
/-- V-TX-18. -/
theorem test_txCan : view 0x3400 State.reset (fun s => (s.txout, s.status)) = some ([0x18], 0x0000) := by decide
/-- V-TX-19. -/
theorem test_txSync : view 0x3500 State.reset (fun s => (s.txout, s.status)) = some ([0x43], 0x0000) := by decide
/-- V-ERR-4: ILLEGAL ranks before BUSY. -/
theorem test_illegal_first : view 0x3001 txBusy (fun s => s.status) = some 0x0809 := by decide
/-- V-RX-1. -/
theorem test_rxStart : view 0x4001 State.reset (fun s => (s.rxexp, s.status)) = some (0x01, 0x0100) := by decide
/-- V-RX-24: a frame in progress is abandoned. -/
theorem test_rxStart_again : view 0x4001 { rxIn .cpl with rxctl := 0x01 } (fun s => (s.rxseq, s.rxctl, s.status)) =
    some (0x00, 0x00, 0x0100) := by decide
/-- V-RX-2, V-RX-3, V-RX-4, V-RX-5 and V-RX-7, one byte each in its state. -/
theorem test_rxByte_states :
    view 0x4101 (rxIn .ctl) (fun s => s.status) = some 0x0200 ∧ view 0x4101 (rxIn .seq) (fun s => s.status) = some 0x0300 ∧
    view 0x41FE (rxIn .cpl) (fun s => s.status) = some 0x0400 ∧ view 0x41FF (rxIn .cpl) (fun s => s.status) = some 0x0060 ∧
    view 0x4101 (rxIn .pay) (fun s => (s.rxcrc, s.rxcnt, s.status)) = some (0x1021, 0x01, 0x0400) ∧
    view 0x4100 { rxIn .pay with rxcnt := 127 } (fun s => (s.rxcnt, s.status)) = some (0x80, 0x0500) ∧
    view 0x41C9 (rxIn .crcH) (fun s => (s.rxrcrc, s.status)) = some (0xC900, 0x0600) := by decide
/-- V-RX-17 to V-RX-20, and the example of R117 where the CRC field matches. -/
theorem test_rxByte_verdicts : [0x4104, 0x4117, 0x4118, 0x4102].map (fun w => view w (rxIn .ctl) (fun s => s.status)) =
      [some 0x0020, some 0x0030, some 0x0040, some 0x0050] ∧
    view 0x4101 { rxIn .crcL with rxcnt := 128, rxcrc := 0xC901, rxrcrc := 0xC900 } (fun s => (s.rxrcrc, s.status)) =
      some (0xC901, 0x0010) := by decide
/-- V-RESP-1 to V-RESP-4. -/
theorem test_rxResp : [0x4206, 0x4215, 0x4243, 0x4218].map (fun w => view w State.reset (fun s => s.status)) =
    [some 0x1000, some 0x2000, some 0x3000, some 0x4000] := by decide
/-- V-RESP-6: the deframer is unchanged. -/
theorem test_rxResp_midFrame : view 0x4206 (rxIn .pay) (fun s => (s.respb, s.status)) = some (0x06, 0x1400) := by decide
/-- 10_state.md R22, R37: read indices 0x7, 0xB and 0xC. -/
theorem test_read : State.read { State.reset with rxexp := 0x2A, respb := 0xFF } 0x7 = 0x002A#16 ∧
    State.read { State.reset with rxexp := 0x2A, respb := 0xFF } 0xB = 0x00FF#16 ∧
    State.read { State.reset with rxexp := 0x2A, respb := 0xFF } 0xC = 0x0000#16 := by decide

/-! ### The step -/

/-- A presented word is performed by the very next step, as the first command after reset. -/
theorem test_step_fetch : nextOf (step (State.reset.withFetchWord 16 0x3500)) = some { State.reset with txout := [0x43] } := by
  decide
/-- R170: a command presented while reset is asserted is not performed. -/
theorem test_step_asserted :
    nextOf (step { State.reset with phase := .asserted, inputs := [.command 0x3500] }) =
      some { State.reset with phase := .asserted } := by decide
/-- R170: the reset input clears the registers and keeps TXOUT. -/
theorem test_step_reset : nextOf (step { txBusy with inputs := [.resetLine true] }) =
    some { State.reset with txout := [0x01, 0x01, 0xFE], phase := .asserted } := by decide
/-- R171, I4: before the first reset. -/
theorem test_step_powerOn : step { State.reset with phase := .powerOn, inputs := [.command 0x3500] } =
    .refused .beforeFirstReset := rfl

/-! ### The assembler (30_encoding.md R67, R68) -/

/-- Letter case, a hexadecimal literal, a comment. -/
theorem test_asm_line : assembleLine ['t', 'x', '.', 'S', 'o', 'h', ' ', '0', 'x', '2', 'a', ' ', ';', 'x'] =
    .ok [.txSoh 0x2A] := by decide +kernel
/-- A character literal. -/
theorem test_asm_char : assembleLine ['R', 'X', '.', 'R', 'E', 'S', 'P', ' ', '\'', 'C', '\''] = .ok [.rxResp 0x43] := by
  decide +kernel
/-- A literal outside 0..255. -/
theorem test_asm_range : assembleLine ['C', 'R', 'C', '.', 'B', 'Y', 'T', 'E', ' ', '2', '5', '6'] = .error .outOfRange := by
  decide +kernel
/-- R68: RX.FRAME with two bytes. -/
theorem test_asm_pseudo :
    assembleLine ['R', 'X', '.', 'F', 'R', 'A', 'M', 'E', ' ', '1', ',', ' ', '4', ',', '0', 'x', 'F', 'F'] =
      .ok [.rxStart 0x01, .rxByte 0x04, .rxByte 0xFF] := by decide +kernel

/-! ### The host's decisions (60_exceptions.md R149 to R155) -/

/-- R149, R155: after 0xFF comes 0x00, and the counter starts again. -/
theorem test_accept_resets : receiverReply .dataOk ⟨0xFF, 2⟩ = some ([.txAck], .accept ⟨0x00, 0⟩) := by decide
/-- R154: EOT is acknowledged and the same packet expected, then CAN in place of a header cancels; the byte after stays. -/
theorem test_eot_then_can : receivePacket ⟨0x01, 1⟩ [0x04, 0x18, 0x55] =
    { actions := commandActions [.rxStart 0x01, .rxByte 0x04, .txAck, .rxStart 0x01, .rxByte 0x18],
      result := some .cancelled, rest := [0x55] } := by decide
/-- R153: one timeout, then ETB in place of a packet, then two timeouts and nothing ready: TX.SYNC again in both rounds. -/
theorem test_sync : receiveFile true [1, 2] [0x17] =
    { actions := [.command .txSync, .wait 3, .command .txSync, .command (.rxStart 0x01), .command (.rxByte 0x17),
        .command .txAck, .command .txSync, .wait 3, .command .txSync, .wait 3, .command .txSync],
      result := none, rest := [] } := by decide
/-- R151, R152: one NAK, with its flush and the same packet again, then ACK of the packet, of EOT and of ETB. -/
theorem test_send : sendFile (some [0xAA]) none [0x15, 0x06, 0x06, 0x06] =
    { actions := [.flush, .command (.txSoh 0x01), .command (.txData 0xAA), .command .txEnd, .command (.rxResp 0x15), .flush,
        .command (.txSoh 0x01), .command (.txData 0xAA), .command .txEnd, .command (.rxResp 0x06), .command .txEot,
        .command (.rxResp 0x06), .command .txEtb, .command (.rxResp 0x06)],
      result := some .sent, rest := [] } := by decide

/-! ### Witnesses: for every obligation with hypotheses, states and operands that meet them -/

/-- IllegalWordOnlySetsTheErrorFields, CommandErrorsFollowTheTable: the ends of every range of R64. -/
theorem witness_illegal_words : ∀ w ∈ ([0x0000, 0x00FF, 0x0200, 0x0F00, 0x1200, 0x1F00, 0x2300, 0x2F00, 0x3600, 0x3F00, 0x4300,
    0xFFFF, 0x0101, 0x1001, 0x22FF, 0x3001, 0x3501] : List Half), IllegalWord w := by simp [IllegalWord]
/-- No legal word is among them: the neighbours of the ranges of R64. -/
theorem witness_legal_words : ∀ w ∈ ([0x0100, 0x1000, 0x1100, 0x11FF, 0x2000, 0x2200, 0x3000, 0x3500, 0x4000, 0x42FF] : List Half),
    ¬ IllegalWord w := by simp [IllegalWord]
/-- StepPerformsTheDecodedCommand. -/
theorem witness_step_command : ∃ s : State, s.phase = .released ∧ s.inputs = [.command 0x1101] ∧
    decode 0x1101#16 = .ok (.crcByte 0x01) := ⟨State.reset.presentWord 0x1101, rfl, rfl, rfl⟩
/-- StepWaitsWhenNothingIsPresented. -/
theorem witness_step_waits : State.reset.inputs = [] := rfl
/-- ResetInputPutsEveryRegisterAtItsResetValue, its first three clauses. -/
theorem witness_reset_input : (∃ s : State, s.inputs = [.resetLine true] ∧ s.txst = .pay) ∧
    (∃ s : State, s.phase = .asserted ∧ s.inputs = [.resetLine false]) ∧
    (∃ s : State, s.phase = .asserted ∧ s.inputs = [.command 0x3000]) :=
  ⟨⟨{ txBusy with inputs := [.resetLine true] }, rfl, rfl⟩,
   ⟨{ State.reset with phase := .asserted, inputs := [.resetLine false] }, rfl, rfl⟩,
   ⟨{ State.reset with phase := .asserted, inputs := [.command 0x3000] }, rfl, rfl⟩⟩
/-- ResetInputPutsEveryRegisterAtItsResetValue, its invariant clause: held in reset with a step to take. -/
theorem witness_held_in_reset : ∃ s t : State, s.phase = .asserted ∧ s.HeldInReset ∧ s.inputs ≠ [] ∧ step s = .next t :=
  ⟨{ State.reset with phase := .asserted, inputs := [.command 0x3000] }, _, rfl, fun _ => rfl, by decide, rfl⟩
/-- CommandBeforeTheFirstResetIsRefused. -/
theorem witness_power_on : ∃ s : State, s.phase = .powerOn ∧ s.inputs = [.command 0x3000] :=
  ⟨{ State.reset with phase := .powerOn, inputs := [.command 0x3000] }, rfl, rfl⟩
/-- SysResetAgreesWithTheResetInput, StepAlwaysAnswersAfterTheFirstReset. -/
theorem witness_released : txBusy.phase = .released ∧ txBusy.phase ≠ .powerOn := by decide
/-- PresentedCommandsArePerformedInOrder. -/
theorem witness_presented : ∃ s : State, s.phase = .released ∧
    s.inputs = [Instr.crcClr, .crcByte 0x01].map (fun i => PortEvent.command (encode i)) ++ [.resetLine true] :=
  ⟨{ State.reset with inputs := [.command 0x1000, .command 0x1101, .resetLine true] }, rfl, rfl⟩
/-- ReadPortAnswersTheIndexedRegister: the reserved indices, both ends. -/
theorem witness_reserved_indices : 0xC#4 ≤ 0xC#4 ∧ 0xC#4 ≤ 0xF#4 ∧ ¬ 0xC#4 ≤ 0xB#4 := by decide
/-- SysResetRestoresEveryRegister: its encoding clause, and its two "only" clauses. -/
theorem witness_sysReset_only : ∃ s t : State, exec .sysReset s = .next t ∧ s.errs = true ∧ t.errs = false ∧ s.txst = .pay ∧
    t.txst = .idle ∧ (0x01#8 : Byte) ≠ 0x00#8 := ⟨{ txBusy with errs := true }, _, rfl, rfl, rfl, rfl, rfl, by decide⟩
/-- CrcBlockGivesTheCrcOfItsBytes. -/
theorem witness_bytes : ([0x00] : List Byte) ≠ [] := by decide
/-- FieldLaws, FrameParsesBack, FramingLaw, DeframingLaw, PseudoInstructionsExpand, ReceiverAdvancesOnlyOnAcceptance,
HandshakeFollowsTheFirstPacket: both ends of the chunk lengths. -/
theorem witness_chunk_lengths : ([] : List Byte).length ≤ 128 ∧ (List.replicate 128 (0xFF : Byte)).length ≤ 128 ∧
    128 < (List.replicate 129 (0xFF : Byte)).length := by simp
/-- FrameParsesBack, PacketTravelsFromFramerToDeframer, RejectedFrameIsNotDrained. -/
theorem witness_other_sequence : (0x02#8 : Byte) ≠ 0x01#8 ∧ State.reset.txst = .idle ∧
    (List.replicate 127 (0xFF : Byte)).length ≤ 127 := ⟨by decide, rfl, by simp⟩
/-- TxSohStartsAFrame, TxDataEmitsOnePayloadByte, TxEndPadsAndEmitsTheCrc, ControlBytesAreEmittedOutsideFrames, FramingLaw:
a framer at rest, one with an empty frame, one with 127 bytes, one that is full. -/
theorem witness_framer : State.reset.txst = .idle ∧ (txBusy.txst = .pay ∧ txBusy.txcnt ≠ 128#8) ∧
    ({ txBusy with txcnt := 127 } : State).txcnt ≠ 128#8 ∧ (txFull.txst = .pay ∧ txFull.txcnt = 128#8) := by decide
/-- FramingLaw: its clause over the commands so far, at both ends. -/
theorem witness_framing_prefix : 0 < 1 ∧ 1 ≤ (txPacketCommands 0x01 [0xAA]).length ∧
    (txPacketCommands 0x01 [0xAA]).length = 3 := by decide
/-- OnlyTxEndOrResetEndsAFrame. -/
theorem witness_frame_ends : ∃ s t : State, step s = .next t ∧ s.txst = .pay ∧ t.txst = .idle :=
  ⟨{ txBusy with inputs := [.resetLine true] }, _, rfl, rfl, rfl⟩
/-- TxoutOnlyGrows, EmittedByteCounts, StatusFieldsWrittenAsTabled: a refused command. -/
theorem witness_refused : ∃ s t : State, exec .txAck s = .next t ∧ t.err ≠ .ok := ⟨txBusy, _, rfl, by decide⟩
/-- TxoutOnlyGrows: its clauses on steps, SYS.RESET and the reset input. -/
theorem witness_grows : (∃ s t : State, exec .sysReset s = .next t) ∧
    (∃ s t : State, s.inputs = [.resetLine false] ∧ step s = .next t) :=
  ⟨⟨txBusy, _, rfl⟩, ⟨{ txBusy with inputs := [.resetLine false] }, _, rfl, rfl⟩⟩
/-- EmittedByteCounts: a successful TX.END with a counter at the bound. -/
theorem witness_emits : ∃ s t : State, s.txcnt ≤ 128#8 ∧ exec .txEnd s = .next t ∧ t.err = .ok :=
  ⟨txFull, _, by decide, rfl, rfl⟩
/-- RxByteFollowsTheDeframerState: every state. -/
theorem witness_deframer : ∀ r ∈ [RxState.idle, .ctl, .seq, .cpl, .pay, .crcH, .crcL], (rxIn r).rxst = r := by decide
/-- DeframingLaw: a frame that ends, with a byte before its end, and one that is incomplete. -/
theorem witness_deframing : deframe 0x01 [0x01, 0x01, 0xFF, 0x00] = some (.seqErr, 3) ∧ 2 < 3 ∧
    deframe 0x01 [0x01, 0x01, 0xFE] = none ∧ deframe 0x01 [0x18] = some (.can, 1) := by decide
/-- VerdictStaysUntilReArmed. -/
theorem witness_verdict : ∃ s t : State, s.rxst = .idle ∧ s.rxv = .eot ∧ exec (.rxByte 0x01) s = .next t ∧
    Instr.rxByte 0x01 ≠ .sysReset ∧ ∀ e, Instr.rxByte 0x01 ≠ .rxStart e :=
  ⟨{ State.reset with rxv := .eot }, _, rfl, rfl, rfl, by decide, fun e h => by cases h⟩
/-- RejectedFrameIsNotDrained: a first payload byte of each class. -/
theorem witness_first_payload_bytes : ∀ x ∈ ([0x01, 0x04, 0x17, 0x18, 0x00] : List Byte),
    x = 0x01 ∨ x = 0x04 ∨ x = 0x17 ∨ x = 0x18 ∨ (x ≠ 0x01 ∧ x ≠ 0x04 ∧ x ≠ 0x17 ∧ x ≠ 0x18) := by decide
/-- RefusalChangesOnlyTheErrorFields, StickyErrorFlag: a refused word, a successful one, and SYS.RESET. -/
theorem witness_words_performed : (∃ t, performWord 0x2100 State.reset = .next t ∧ t.err ≠ .ok) ∧
    (∃ t, performWord 0x3000 State.reset = .next t ∧ t.err = .ok ∧ decode 0x3000#16 ≠ .ok .sysReset) ∧
    (∃ t, performWord 0x0100 txBusy = .next t ∧ decode 0x0100#16 = .ok .sysReset) := by
  refine ⟨⟨_, rfl, ?_⟩, ⟨_, rfl, rfl, ?_⟩, ⟨_, rfl, rfl⟩⟩ <;> decide
/-- StatusFieldsWrittenAsTabled: RX.BYTE that does not end a frame. -/
theorem witness_frame_goes_on : ∃ s t : State, exec (.rxByte 0x01) s = .next t ∧ t.err = .ok ∧ t.rxst ≠ .idle :=
  ⟨rxIn .ctl, _, rfl, rfl, by decide⟩
/-- EachCommandWritesOnlyItsUnit: a command of each unit. -/
theorem witness_units : isCrcCommand .crcClr = true ∧ isTxCommand .txEnd = true ∧ isRxCommand (.rxStart 0x00) = true ∧
    isRespCommand (.rxResp 0x06) = true ∧ ∃ s t : State, exec .txEnd s = .next t :=
  ⟨rfl, rfl, rfl, rfl, txBusy, _, rfl⟩
/-- StepKeepsTheRegisterInvariants: a deframer that waits for the low CRC byte, with a step to take. -/
theorem witness_inv : ∃ s t : State, s.Inv ∧ s.rxst = .crcL ∧ step s = .next t :=
  ⟨{ rxIn .crcL with rxcnt := 128, inputs := [.command 0x4101] }, _, by decide, rfl, rfl⟩
/-- StepKeepsTheFrameOnTheWire: a frame in progress that meets both premises, with a step to take. -/
theorem witness_frame_on_wire : ∃ s t : State, s.Inv ∧ s.FrameOnWire ∧ s.txst = .pay ∧ step s = .next t :=
  ⟨{ txBusy with inputs := [.command 0x2101] }, _, by decide, fun _ => ⟨[], 0x01, [], rfl, rfl, rfl⟩, rfl, rfl⟩
/-- PseudoInstructionsExpand: a byte that is no control code of R68. -/
theorem witness_no_control : (0x01 : Byte) ∉ controlCommands.map (fun p => p.2.2) := by decide
/-- AssemblerChecksArguments: literals at the ends of the range and outside it. -/
theorem witness_literals : numberValue ['0'] = some 0 ∧ numberValue ['0', 'x', 'F', 'F'] = some 255 ∧
    numberValue ['2', '5', '6'] = some 256 := by decide
/-- ThirdMismatchExhaustsTheRetryBudget: three sequences other than the expected one. -/
theorem witness_mismatches : (0x00 : Byte) ≠ 0x01 ∧ (0x02 : Byte) ≠ 0x01 ∧ (0xFF : Byte) ≠ 0x01 := by decide
/-- ReceiverAdvancesOnlyOnAcceptance: a reply of each kind its clauses name. -/
theorem witness_replies : (∃ is next, receiverReply .dataOk ⟨0xFF, 2⟩ = some (is, .accept next)) ∧
    (∃ is same, receiverReply .eot ⟨0x01, 1⟩ = some (is, .sameSequence same)) ∧
    (∃ is n same, receiverReply .crcErr ⟨0x01, 1⟩ = some (is, .retryAfter n same)) :=
  ⟨⟨_, _, rfl⟩, ⟨_, _, rfl⟩, ⟨_, _, _, rfl⟩⟩
/-- SenderRepeatsThePacketUntilAck, SenderEndsWithEotThenEtb: responses that are not ACK. -/
theorem witness_refusals : ∀ r ∈ ([0x15, 0x43, 0x05, 0x07] : List Byte), r ≠ 0x06#8 := by decide
/-- ReceivedFileIsTheFileZeroPadded, TransferDeliversThePaddedFile (with State.reset, whose framer is IDLE). -/
theorem witness_file : ([0xAA] : List Byte) ≠ [] := by decide

end Sys2Proof.Tests
end

/-! # The step and the totality of the commands (spec 00_scope.md R16)

The step by the oldest input, one equation per case; that every command answers a next state and leaves the reset
input's phase and the inputs alone; and from these the two statements of the step's family. -/

namespace Sys2Proof.Machine

/-! ### The step by the oldest input -/

theorem step_of_inputs_nil {s : State} (h : s.inputs = []) : step s = .next s := by
  simp only [step, stepPort, h]

theorem step_of_inputs_cons {s : State} {e : PortEvent} {rest : List PortEvent} (h : s.inputs = e :: rest) :
    step s = takeInput e (s.withInputs rest) := by
  simp only [step, stepPort, h]

theorem takeInput_resetLine (level : Bool) (s : State) :
    takeInput (.resetLine level) s = .next (s.setResetLine level) := rfl

theorem takeInput_command_of_released (w : Half) {s : State} (h : s.phase = .released) :
    takeInput (.command w) s = performWord w s := by
  simp only [takeInput, h]

theorem takeInput_command_of_asserted (w : Half) {s : State} (h : s.phase = .asserted) :
    takeInput (.command w) s = .next s := by
  simp only [takeInput, h]

theorem performWord_of_decode_ok {w : Half} {i : Instr} (h : decode w = .ok i) (s : State) :
    performWord w s = exec i s := by
  simp only [performWord, h]

theorem performWord_of_decode_error {w : Half} {e : DecodeError} (h : decode w = .error e) (s : State) :
    performWord w s = raiseCmdError .illegal s := by
  simp only [performWord, h]

theorem step_command_of_released {s : State} {w : Half} {rest : List PortEvent} (hp : s.phase = .released)
    (hin : s.inputs = .command w :: rest) : step s = performWord w (s.withInputs rest) := by
  rw [step_of_inputs_cons hin]
  exact takeInput_command_of_released w hp

/-! ### Every command answers -/

/-- The outcome of a command performed in `s` is a next state with the reset input's phase and the inputs of `s`: no
command moves the reset input (70_reset_and_hazards.md R170) or takes an input (log 1). -/
def AnswersKeepingPort (s : State) (o : Host.Outcome State Fault Refusal) : Prop :=
  ∃ t, o = .next t ∧ t.phase = s.phase ∧ t.inputs = s.inputs

theorem raiseCmdError_answers (code : ErrCode) (s : State) : AnswersKeepingPort s (raiseCmdError code s) :=
  ⟨s.withError code, rfl, rfl, rfl⟩

theorem complete_answers {s done : State} (hp : done.phase = s.phase) (hin : done.inputs = s.inputs) :
    AnswersKeepingPort s (complete done) :=
  ⟨done.withOk, rfl, hp, hin⟩

theorem unlessTxBusy_answers {s done : State} (hp : done.phase = s.phase) (hin : done.inputs = s.inputs) :
    AnswersKeepingPort s (unlessTxBusy s done) := by
  unfold unlessTxBusy
  split
  · exact raiseCmdError_answers .busy s
  · exact complete_answers hp hin

theorem ifTxBusy_answers {s : State} {body : Host.Outcome State Fault Refusal} (h : AnswersKeepingPort s body) :
    AnswersKeepingPort s (ifTxBusy s body) := by
  unfold ifTxBusy
  split
  · exact raiseCmdError_answers .state s
  · exact h

theorem emitControl_answers (code : Byte) (s : State) : AnswersKeepingPort s (emitControl code s) :=
  unlessTxBusy_answers rfl rfl

theorem execTxData_answers (b : Byte) (s : State) : AnswersKeepingPort s (execTxData b s) := by
  refine ifTxBusy_answers ?_
  split
  · exact raiseCmdError_answers .full s
  · exact complete_answers rfl rfl

@[simp] theorem rxCtl_phase (b : Byte) (s : State) : (rxCtl b s).phase = s.phase := by
  unfold rxCtl
  split <;> rfl

@[simp] theorem rxCtl_inputs (b : Byte) (s : State) : (rxCtl b s).inputs = s.inputs := by
  unfold rxCtl
  split <;> rfl

@[simp] theorem rxCpl_phase (b : Byte) (s : State) : (rxCpl b s).phase = s.phase := by
  unfold rxCpl
  split <;> rfl

@[simp] theorem rxCpl_inputs (b : Byte) (s : State) : (rxCpl b s).inputs = s.inputs := by
  unfold rxCpl
  split <;> rfl

theorem execRxByte_answers (b : Byte) (s : State) : AnswersKeepingPort s (execRxByte b s) := by
  unfold execRxByte
  split
  · exact raiseCmdError_answers .state s
  · exact complete_answers (rxCtl_phase b s) (rxCtl_inputs b s)
  · exact complete_answers rfl rfl
  · exact complete_answers (rxCpl_phase b s) (rxCpl_inputs b s)
  · exact complete_answers rfl rfl
  · exact complete_answers rfl rfl
  · exact complete_answers rfl rfl

/-- The case split along R62: each command ends by one of the ways above. -/
theorem exec_answers (i : Instr) (s : State) : AnswersKeepingPort s (exec i s) := by
  cases i with
  | sysReset | crcClr | crcByte | rxStart | rxResp => exact complete_answers rfl rfl
  | txSoh sn => exact unlessTxBusy_answers rfl rfl
  | txData b => exact execTxData_answers b s
  | txEnd => exact ifTxBusy_answers (complete_answers rfl rfl)
  | txAck | txNak | txEot | txEtb | txCan | txSync => exact emitControl_answers _ s
  | rxByte b => exact execRxByte_answers b s

theorem performWord_answers (w : Half) (s : State) : AnswersKeepingPort s (performWord w s) := by
  cases h : decode w with
  | ok i =>
    rw [performWord_of_decode_ok h]
    exact exec_answers i s
  | error e =>
    rw [performWord_of_decode_error h]
    exact raiseCmdError_answers .illegal s

/-! ### Once the first reset is over it stays over -/

theorem setResetLine_past_first_reset (level : Bool) {s : State} (h : s.phase ≠ .powerOn) :
    (s.setResetLine level).phase ≠ .powerOn := by
  obtain ⟨-, ht⟩ | ⟨-, -, ht⟩ | ⟨-, -, ht⟩ := setResetLine_cases level s
  · simp [ht]
  · simp [ht]
  · rwa [ht]

theorem takeInput_answers_past_first_reset (e : PortEvent) {s : State} (h : s.phase ≠ .powerOn) :
    ∃ t, takeInput e s = .next t ∧ t.phase ≠ .powerOn := by
  cases e with
  | resetLine level => exact ⟨_, takeInput_resetLine level s, setResetLine_past_first_reset level h⟩
  | command w =>
    cases hp : s.phase with
    | powerOn => exact absurd hp h
    | asserted => exact ⟨s, takeInput_command_of_asserted w hp, h⟩
    | released =>
      obtain ⟨t, ht, hphase, -⟩ := performWord_answers w s
      exact ⟨t, (takeInput_command_of_released w hp).trans ht, hphase ▸ h⟩

/-- Settles O10, by the oldest input: with none the block waits, and every input past the first reset is answered. -/
theorem stepAlwaysAnswersAfterTheFirstReset : Obligations.StepAlwaysAnswersAfterTheFirstReset := by
  intro s h
  cases hin : s.inputs with
  | nil => exact ⟨s, step_of_inputs_nil hin, h⟩
  | cons e rest =>
    rw [step_of_inputs_cons hin]
    exact takeInput_answers_past_first_reset e h

/-- Settles O5: the step takes the oldest word to the command port, where it is decoded. -/
theorem stepPerformsTheDecodedCommand : Obligations.StepPerformsTheDecodedCommand := by
  refine ⟨fun s w i rest hp hin hw => ?_, fun s w rest hp hin => step_command_of_released hp hin⟩
  rw [step_command_of_released hp hin]
  exact performWord_of_decode_ok hw (s.withInputs rest)

end Sys2Proof.Machine

/-! # Registers, STATUS and invariants (spec 10_state.md R22 to R40)

Said once for all of them: what a command that answers a next state has done (`exec_next`). Every statement about the
registers is a case analysis along it, and an invariant of the step is one along `step_keeps`. -/

namespace Sys2Proof.Machine

open Sys2Proof.Claims

/-! ### What a command can have done -/

/-- A control-byte command and the byte it emits (42_tx_framer.md R100 to R105). -/
inductive EmitsCode : Instr → Byte → Prop
  | txAck : EmitsCode .txAck ackCode
  | txNak : EmitsCode .txNak nakCode
  | txEot : EmitsCode .txEot eotCode
  | txEtb : EmitsCode .txEtb etbCode
  | txCan : EmitsCode .txCan canCode
  | txSync : EmitsCode .txSync syncCode

/-- The checks a command can fail, each with its error (60_exceptions.md R137). -/
inductive Refuses (s : State) : Instr → ErrCode → Prop
  | sohInFrame (sn : Byte) (hp : s.txst = .pay) : Refuses s (.txSoh sn) .busy
  | controlInFrame {i : Instr} {code : Byte} (hi : EmitsCode i code) (hp : s.txst = .pay) : Refuses s i .busy
  | dataNoFrame (b : Byte) (hp : s.txst = .idle) : Refuses s (.txData b) .state
  | dataFull (b : Byte) (hp : s.txst = .pay) (hc : s.txcnt = payloadLenByte) : Refuses s (.txData b) .full
  | endNoFrame (hp : s.txst = .idle) : Refuses s .txEnd .state
  | byteNotArmed (b : Byte) (hr : s.rxst = .idle) : Refuses s (.rxByte b) .state

/-- What a command that passes its checks leaves, before STATUS.ERR is set to OK (R136): the guard and the update of
each rule of 40_crc_generator.md to 44_system.md. -/
inductive Effect (s : State) : Instr → State → Prop
  | sysReset : Effect s .sysReset s.resetRegisters
  | crcClr : Effect s .crcClr { s with crc := 0x0000 }
  | crcByte (b : Byte) : Effect s (.crcByte b) { s with crc := upd16 s.crc b }
  | txSoh (sn : Byte) (hp : s.txst = .idle) :
      Effect s (.txSoh sn) (State.emit (hdr sohCode sn) { s with txcrc := 0x0000, txcnt := 0, txst := .pay })
  | txData (b : Byte) (hp : s.txst = .pay) (hc : s.txcnt ≠ payloadLenByte) :
      Effect s (.txData b) (State.emit [b] { s with txcrc := upd16 s.txcrc b, txcnt := s.txcnt + 1 })
  | txEnd (hp : s.txst = .pay) :
      Effect s .txEnd (State.emit (padding s.txcnt.toNat ++ crcField s.paddedTxcrc)
        { s with txcrc := s.paddedTxcrc, txcnt := payloadLenByte, txst := .idle })
  | txControl {i : Instr} {code : Byte} (hi : EmitsCode i code) (hp : s.txst = .idle) : Effect s i (s.emit [code])
  | rxStart (e : Byte) :
      Effect s (.rxStart e)
        { s with
          rxexp := e, rxst := .ctl, rxv := .none, rxcnt := 0, rxcrc := 0x0000, rxrcrc := 0x0000,
          rxctl := 0x00, rxseq := 0x00, rxcpl := 0x00 }
  | rxCtlData (b : Byte) (hr : s.rxst = .ctl) (hv : (ctlClass b).verdict = none) :
      Effect s (.rxByte b) { s with rxctl := b, rxst := .seq }
  | rxCtlEnds (b : Byte) (v : Verdict) (hr : s.rxst = .ctl) (hv : (ctlClass b).verdict = some v) :
      Effect s (.rxByte b) { s with rxctl := b, rxv := v, rxst := .idle }
  | rxSeq (b : Byte) (hr : s.rxst = .seq) : Effect s (.rxByte b) { s with rxseq := b, rxst := .cpl }
  | rxHeaderOk (b : Byte) (hr : s.rxst = .cpl) (hh : hdrOk s.rxexp s.rxseq b = true) :
      Effect s (.rxByte b) { s with rxcpl := b, rxst := .pay }
  | rxHeaderBad (b : Byte) (hr : s.rxst = .cpl) (hh : hdrOk s.rxexp s.rxseq b = false) :
      Effect s (.rxByte b) { s with rxcpl := b, rxv := .seqErr, rxst := .idle }
  | rxPay (b : Byte) (hr : s.rxst = .pay) (hc : s.rxcnt + 1 ≠ payloadLenByte) :
      Effect s (.rxByte b) { s with rxcrc := upd16 s.rxcrc b, rxcnt := s.rxcnt + 1 }
  | rxPayLast (b : Byte) (hr : s.rxst = .pay) (hc : s.rxcnt + 1 = payloadLenByte) :
      Effect s (.rxByte b) { s with rxcrc := upd16 s.rxcrc b, rxcnt := s.rxcnt + 1, rxst := .crcH }
  | rxCrcHigh (b : Byte) (hr : s.rxst = .crcH) : Effect s (.rxByte b) { s with rxrcrc := zext16 b <<< 8, rxst := .crcL }
  | rxCrcLow (b : Byte) (hr : s.rxst = .crcL) :
      Effect s (.rxByte b)
        { s with
          rxrcrc := s.rxrcrc ||| zext16 b, rxv := crcVerdict s.rxcrc (s.rxrcrc ||| zext16 b), rxst := .idle }
  | rxResp (r : Byte) : Effect s (.rxResp r) { s with respb := r, resp := respClass r }

theorem Refuses.code_ne_ok {i : Instr} {s : State} {code : ErrCode} (h : Refuses s i code) : code ≠ .ok := by
  cases h <;> decide

/-- A command performed in `s` that leaves `t` either failed a check or completed its rule (R135, R136). -/
def Performed (i : Instr) (s t : State) : Prop :=
  (∃ code, Refuses s i code ∧ t = s.withError code) ∨ ∃ done, Effect s i done ∧ t = done.withOk

theorem performed_control {i : Instr} {code : Byte} {s t : State} (hi : EmitsCode i code)
    (h : emitControl code s = .next t) : Performed i s t := by
  rcases emitControl_next h with ⟨hp, ht⟩ | ⟨hp, ht⟩
  · exact .inl ⟨_, .controlInFrame hi hp, ht⟩
  · exact .inr ⟨_, .txControl hi hp, ht⟩

theorem effect_rxCtl {b : Byte} {s : State} (hr : s.rxst = .ctl) : Effect s (.rxByte b) (rxCtl b s) := by
  unfold rxCtl
  split
  · exact .rxCtlData b hr ‹_›
  · exact .rxCtlEnds b _ hr ‹_›

theorem effect_rxCpl {b : Byte} {s : State} (hr : s.rxst = .cpl) : Effect s (.rxByte b) (rxCpl b s) := by
  unfold rxCpl
  split
  · exact .rxHeaderOk b hr ‹_›
  · exact .rxHeaderBad b hr (Bool.eq_false_of_not_eq_true ‹_›)

theorem effect_rxPay {b : Byte} {s : State} (hr : s.rxst = .pay) : Effect s (.rxByte b) (rxPay b s) := by
  by_cases hc : s.rxcnt + 1 = payloadLenByte
  · simpa only [rxPay, if_pos hc] using Effect.rxPayLast b hr hc
  · simpa only [rxPay, if_neg hc] using Effect.rxPay b hr hc

theorem performed_rxByte {b : Byte} {s t : State} (h : execRxByte b s = .next t) : Performed (.rxByte b) s t := by
  obtain ⟨hr, ht⟩ | h := execRxByte_next h
  · exact .inl ⟨_, .byteNotArmed b hr, ht⟩
  · rcases h with ⟨hr, ht⟩ | ⟨hr, ht⟩ | ⟨hr, ht⟩ | ⟨hr, ht⟩ | ⟨hr, ht⟩ | ⟨hr, ht⟩
    · exact .inr ⟨_, effect_rxCtl hr, ht⟩
    · exact .inr ⟨_, .rxSeq b hr, ht⟩
    · exact .inr ⟨_, effect_rxCpl hr, ht⟩
    · exact .inr ⟨_, effect_rxPay hr, ht⟩
    · exact .inr ⟨_, .rxCrcHigh b hr, ht⟩
    · exact .inr ⟨_, .rxCrcLow b hr, ht⟩

/-- Everything a command that answers a next state can have done. -/
theorem exec_next {i : Instr} {s t : State} (h : exec i s = .next t) : Performed i s t := by
  cases i with
  | sysReset => exact .inr ⟨_, .sysReset, (complete_next.mp h).symm⟩
  | crcClr => exact .inr ⟨_, .crcClr, (complete_next.mp h).symm⟩
  | crcByte b => exact .inr ⟨_, .crcByte b, (complete_next.mp h).symm⟩
  | txSoh sn =>
    rcases unlessTxBusy_next h with ⟨hp, ht⟩ | ⟨hp, ht⟩
    · exact .inl ⟨_, .sohInFrame sn hp, ht⟩
    · exact .inr ⟨_, .txSoh sn hp, ht⟩
  | txData b =>
    rcases execTxData_next h with ⟨hp, ht⟩ | ⟨hp, hc, ht⟩ | ⟨hp, hc, ht⟩
    · exact .inl ⟨_, .dataNoFrame b hp, ht⟩
    · exact .inl ⟨_, .dataFull b hp hc, ht⟩
    · exact .inr ⟨_, .txData b hp hc, ht⟩
  | txEnd =>
    rcases ifTxBusy_next h with ⟨hp, ht⟩ | ⟨hp, hb⟩
    · exact .inl ⟨_, .endNoFrame hp, ht⟩
    · exact .inr ⟨_, .txEnd hp, (complete_next.mp hb).symm⟩
  | txAck => exact performed_control .txAck h
  | txNak => exact performed_control .txNak h
  | txEot => exact performed_control .txEot h
  | txEtb => exact performed_control .txEtb h
  | txCan => exact performed_control .txCan h
  | txSync => exact performed_control .txSync h
  | rxStart e => exact .inr ⟨_, .rxStart e, (complete_next.mp h).symm⟩
  | rxByte b => exact performed_rxByte h
  | rxResp r => exact .inr ⟨_, .rxResp r, (complete_next.mp h).symm⟩

theorem exec_refused {i : Instr} {s t : State} (h : exec i s = .next t) (ht : t.err ≠ .ok) :
    ∃ code, Refuses s i code ∧ t = s.withError code := by
  obtain hr | ⟨done, -, rfl⟩ := exec_next h
  · exact hr
  · exact absurd rfl ht

theorem exec_completed {i : Instr} {s t : State} (h : exec i s = .next t) (ht : t.err = .ok) :
    ∃ done, Effect s i done ∧ t = done.withOk := by
  obtain ⟨code, hr, rfl⟩ | he := exec_next h
  · exact absurd ht hr.code_ne_ok
  · exact he

/-- Everything a word performed can have done: an illegal word is one more way to be refused (R64). -/
theorem performWord_performed {w : Half} {s t : State} (h : performWord w s = .next t) :
    (∃ code, code ≠ .ok ∧ t = s.withError code) ∨
    ∃ i done, decode w = .ok i ∧ Effect s i done ∧ t = done.withOk := by
  obtain ⟨i, hw, hi⟩ | ⟨e, -, ht⟩ := performWord_next h
  · obtain ⟨code, hr, ht⟩ | ⟨done, he, ht⟩ := exec_next hi
    · exact .inl ⟨code, hr.code_ne_ok, ht⟩
    · exact .inr ⟨i, done, hw, he, ht⟩
  · exact .inl ⟨.illegal, by decide, ht⟩

/-! ### What a step can have done -/

theorem setResetLine_keeps {P : State → Prop} (hreset : ∀ u phase, P u → P { u.resetRegisters with phase := phase })
    (level : Bool) {s : State} (hs : P s) : P (s.setResetLine level) := by
  obtain ⟨-, ht⟩ | ⟨-, -, ht⟩ | ⟨-, -, ht⟩ := setResetLine_cases level s <;> rw [ht]
  · exact hreset s .asserted hs
  · exact hreset s .released hs
  · exact hs

/-- A property kept by taking an input off the list, by the reset input, by a refusal and by the effect of every
command is kept by every step. -/
theorem step_keeps {P : State → Prop} (hinputs : ∀ u rest, P u → P (u.withInputs rest))
    (hreset : ∀ u phase, P u → P { u.resetRegisters with phase := phase })
    (herror : ∀ u code, P u → P (u.withError code))
    (hdone : ∀ i u done, Effect u i done → P u → P done.withOk)
    {s t : State} (h : step s = .next t) (hs : P s) : P t := by
  obtain ⟨-, rfl⟩ | ⟨level, rest, -, rfl⟩ | ⟨w, rest, -, -, rfl⟩ | ⟨w, rest, -, -, hw⟩ := step_next h
  · exact hs
  · exact setResetLine_keeps hreset level (hinputs s rest hs)
  · exact hinputs s rest hs
  · obtain ⟨code, -, rfl⟩ | ⟨i, done, -, he, rfl⟩ := performWord_performed hw
    · exact herror _ code (hinputs s rest hs)
    · exact hdone i _ done he (hinputs s rest hs)

/-! ### The invariants of R40 -/

/-- The invariants of R40 about the framer's registers. -/
def State.FramerInv (s : State) : Prop := s.txcnt ≤ 128#8 ∧ s.FramerConsistent

/-- The invariants of R40 about the deframer's registers. -/
def State.DeframerInv (s : State) : Prop := s.rxcnt ≤ 128#8 ∧ s.DeframerConsistent

/-- The invariants of R40 about the deframer, state by state. -/
theorem deframerInv_iff {s : State} :
    s.DeframerInv ↔
      match s.rxst with
      | .idle => (s.rxcnt = 0#8 ∨ s.rxcnt = 128#8) ∧ (s.rxcnt = 128#8 ↔ s.rxv = .dataOk ∨ s.rxv = .crcErr)
      | .ctl | .seq | .cpl => s.rxcnt = 0#8 ∧ s.rxv = .none
      | .pay => s.rxcnt < 128#8 ∧ s.rxv = .none
      | .crcH | .crcL => s.rxcnt = 128#8 ∧ s.rxv = .none := by
  unfold State.DeframerInv State.DeframerConsistent
  cases s.rxst <;> simp <;> bv_omega

theorem inv_iff {s : State} : s.Inv ↔ s.FramerInv ∧ s.DeframerInv ∧ s.ErrorsRemembered :=
  ⟨fun ⟨⟨htc, hrc⟩, hd, hf, he⟩ => ⟨⟨htc, hf⟩, ⟨hrc, hd⟩, he⟩,
    fun ⟨⟨htc, hf⟩, ⟨hrc, hd⟩, he⟩ => ⟨⟨htc, hrc⟩, hd, hf, he⟩⟩

/-- A counter that has not reached 128 counts on without wrapping. -/
theorem toNat_counter_step {c : Byte} (hc : c ≤ 128#8) (hfull : c ≠ payloadLenByte) :
    (c + 1).toNat = c.toNat + 1 := by
  have hne : c ≠ 128#8 := hfull
  bv_omega

theorem counter_step_le {c : Byte} (hc : c ≤ 128#8) (hfull : c ≠ payloadLenByte) : c + 1 ≤ 128#8 := by
  have hne : c ≠ 128#8 := hfull
  bv_omega

theorem framerInv_resetRegisters (s : State) : s.resetRegisters.FramerInv :=
  ⟨Nat.zero_le _, fun ⟨_, h0⟩ => absurd rfl h0⟩

theorem deframerInv_resetRegisters (s : State) : s.resetRegisters.DeframerInv := by
  simp [deframerInv_iff]

theorem inv_resetRegisters (s : State) : s.resetRegisters.Inv :=
  inv_iff.mpr ⟨framerInv_resetRegisters s, deframerInv_resetRegisters s, .inl rfl⟩

theorem Effect.keeps_framerInv {i : Instr} {s done : State} (h : Effect s i done) (hs : s.FramerInv) :
    done.FramerInv := by
  obtain ⟨hc, hf⟩ := hs
  cases h with
  | sysReset => exact framerInv_resetRegisters s
  | txSoh sn hp => exact ⟨Nat.zero_le _, nofun⟩
  | txData b hp hfull => exact ⟨counter_step_le hc hfull, fun ⟨hi, _⟩ => nomatch hp.symm.trans hi⟩
  | txEnd hp => exact ⟨BitVec.le_refl _, fun _ => rfl⟩
  | _ => exact ⟨hc, hf⟩

theorem crcVerdict_cases (c r : Half) : crcVerdict c r = .dataOk ∨ crcVerdict c r = .crcErr := by
  unfold crcVerdict
  split
  · exact .inl rfl
  · exact .inr rfl

/-- A frame that ends at its first byte has the verdict of a control frame. -/
theorem verdict_of_control {c : CtlClass} {v : Verdict} (h : c.verdict = some v) : v ≠ .dataOk ∧ v ≠ .crcErr := by
  cases c <;> cases h <;> decide

theorem Effect.keeps_deframerInv {i : Instr} {s done : State} (h : Effect s i done) (hs : s.DeframerInv) :
    done.DeframerInv := by
  rw [deframerInv_iff] at hs ⊢
  cases h with
  | sysReset | rxStart => simp
  | rxCtlData b hr hv | rxSeq b hr | rxHeaderOk b hr | rxHeaderBad b hr | rxCrcHigh b hr => simp_all
  | rxCtlEnds b v hr hv =>
    obtain ⟨hok, herr⟩ := verdict_of_control hv
    simp_all
  | rxPay b hr hc =>
    simp only [hr, payloadLenByte] at hs hc ⊢
    exact ⟨by bv_omega, hs.2⟩
  | rxPayLast b hr hc =>
    simp only [hr] at hs ⊢
    exact ⟨hc, hs.2⟩
  | rxCrcLow b hr =>
    simp only [hr] at hs ⊢
    simp [hs.1, crcVerdict_cases]
  | _ => exact hs

theorem Effect.keeps_inv {i : Instr} {s done : State} (h : Effect s i done) (hs : s.Inv) : done.withOk.Inv := by
  obtain ⟨hframer, hdeframer, -⟩ := inv_iff.mp hs
  exact inv_iff.mpr ⟨h.keeps_framerInv hframer, h.keeps_deframerInv hdeframer, .inl rfl⟩

theorem inv_withError (code : ErrCode) {s : State} (hs : s.Inv) : (s.withError code).Inv := by
  obtain ⟨hframer, hdeframer, -⟩ := inv_iff.mp hs
  exact inv_iff.mpr ⟨hframer, hdeframer, .inr rfl⟩

theorem step_keeps_inv {s t : State} (h : step s = .next t) (hs : s.Inv) : t.Inv :=
  step_keeps (fun _ _ hu => hu) (fun u _ _ => inv_resetRegisters u) (fun _ code hu => inv_withError code hu)
    (fun _ _ _ he hu => he.keeps_inv hu) h hs

/-- The bounds of R40 on the codes hold of the enumerations. -/
theorem codes_in_range (r : RxState) (v : Verdict) (p : RespClass) (e : ErrCode) :
    r.code ≠ 7 ∧ v.code ≤ 7 ∧ p.code ≤ 4 ∧ e.code ≤ 4 :=
  ⟨by cases r <;> decide, by cases v <;> decide, by cases p <;> decide, by cases e <;> decide⟩

/-- Settles O48: the framer's, the deframer's and the error fields' invariants are kept each on its own. -/
theorem stepKeepsTheRegisterInvariants : Obligations.StepKeepsTheRegisterInvariants :=
  ⟨inv_resetRegisters State.reset, fun _ _ hs h => step_keeps_inv h hs,
    fun s => codes_in_range s.rxst s.rxv s.resp s.err⟩

/-! ### The frame on the wire -/

theorem crc16_concat (xs : List Byte) (b : Byte) : crc16 (xs ++ [b]) = upd16 (crc16 xs) b := by
  simp [crc16, crcFold]

theorem Effect.keeps_frameOnWire {i : Instr} {s done : State} (h : Effect s i done) (hinv : s.Inv)
    (hs : s.FrameOnWire) : done.FrameOnWire := by
  cases h with
  | sysReset => exact nofun
  | txSoh sn hp => exact fun _ => ⟨s.txout, sn, [], (List.append_nil _).symm, rfl, rfl⟩
  | txData b hp hfull =>
    intro _
    obtain ⟨before, sn, payload, hout, hlen, hcrc⟩ := hs hp
    refine ⟨before, sn, payload ++ [b], ?_, ?_, ?_⟩
    · simp [hout]
    · obtain ⟨⟨htc, -⟩, -⟩ := hinv
      rw [List.length_append, List.length_singleton, hlen]
      exact (toNat_counter_step htc hfull).symm
    · rw [crc16_concat, ← hcrc]
      rfl
  | txEnd hp => exact nofun
  | txControl hi hp => exact fun hpay => nomatch hp.symm.trans hpay
  | _ => exact hs

/-- Settles O49, together with the invariants of R40: they bound TXCNT, so that it counts without wrapping. -/
theorem stepKeepsTheFrameOnTheWire : Obligations.StepKeepsTheFrameOnTheWire := by
  intro s t hinv hs h
  have keeps : t.Inv ∧ t.FrameOnWire :=
    step_keeps (P := fun u => u.Inv ∧ u.FrameOnWire) (fun _ _ hu => hu)
      (fun u _ _ => ⟨inv_resetRegisters u, nofun⟩) (fun _ code ⟨hi, hw⟩ => ⟨inv_withError code hi, hw⟩)
      (fun _ _ _ he ⟨hi, hw⟩ => ⟨he.keeps_inv hi, he.keeps_frameOnWire hi hw⟩) h ⟨hinv, hs⟩
  exact keeps.2

/-! ### STATUS and the reset state (R22, R34) -/

/-- Settles O12, index by index in the one fixed state. -/
theorem resetStateReadsZeroEverywhere : Obligations.ResetStateReadsZeroEverywhere :=
  ⟨by decide, rfl, rfl, rfl, rfl, rfl, rfl⟩

theorem ErrCode.code_eq (e : ErrCode) : e.code = (errBits e).setWidth 16 := by cases e <;> rfl
theorem Verdict.code_eq (v : Verdict) : v.code = (rxvBits v).setWidth 16 := by cases v <;> rfl
theorem RxState.code_eq (r : RxState) : r.code = (rxstBits r).setWidth 16 := by cases r <;> rfl
theorem RespClass.code_eq (p : RespClass) : p.code = (respBits p).setWidth 16 := by cases p <;> rfl
theorem TxState.code_eq (x : TxState) : x.code = (BitVec.ofBool (x == .pay)).setWidth 16 := by cases x <;> rfl
theorem errsCode_eq (b : Bool) : errsCode b = (BitVec.ofBool b).setWidth 16 := by cases b <;> rfl

/-- Bit `k` of STATUS is a bit of the one field whose place `k` is in (R34). -/
theorem status_getElem (s : State) {k : Nat} (hk : k < 16) :
    s.status[k] =
      ((errBits s.err).getLsbD k || (decide (3 ≤ k) && (BitVec.ofBool s.errs).getLsbD (k - 3)) ||
        (decide (4 ≤ k) && (rxvBits s.rxv).getLsbD (k - 4)) ||
        (decide (8 ≤ k) && (rxstBits s.rxst).getLsbD (k - 8)) ||
        (decide (11 ≤ k) && (BitVec.ofBool (s.txst == .pay)).getLsbD (k - 11)) ||
        (decide (12 ≤ k) && (respBits s.resp).getLsbD (k - 12))) := by
  unfold State.status
  rw [ErrCode.code_eq, Verdict.code_eq, RxState.code_eq, RespClass.code_eq, TxState.code_eq, errsCode_eq]
  interval_cases k <;> simp

/-- Settles O14, bit by bit: every bit of a field's place is outside the other fields' places. -/
theorem statusPacksTheInternalRegisters : Obligations.StatusPacksTheInternalRegisters := by
  refine ⟨by decide, fun s => ⟨?err, ?errs, ?rxv, ?rxst, ?txst, ?resp, ?top⟩⟩
  case errs | txst | top => simp [status_getElem]
  all_goals
    ext k hk
    interval_cases k <;> simp [status_getElem]

/-! ### TXOUT (R38) -/

theorem Effect.txout_prefix {i : Instr} {s done : State} (h : Effect s i done) : s.txout <+: done.txout := by
  cases h with
  | txSoh | txData | txEnd | txControl => exact List.prefix_append _ _
  | _ => exact List.prefix_rfl

/-- Settles O31: an effect only appends to TXOUT, and a refusal and both resets keep it. -/
theorem txoutOnlyGrows : Obligations.TxoutOnlyGrows := by
  refine ⟨fun s t h => ?step, fun i s t h ht => ?refused, fun s t h => ?sysReset, fun level rest s t hin h => ?line⟩
  case step =>
    exact step_keeps (P := fun u => s.txout <+: u.txout) (fun _ _ hu => hu) (fun _ _ hu => hu) (fun _ _ hu => hu)
      (fun _ _ _ he hu => hu.trans he.txout_prefix) h List.prefix_rfl
  case refused =>
    obtain ⟨code, -, rfl⟩ := exec_refused h ht
    rfl
  case sysReset =>
    rw [← complete_next.mp h]
    rfl
  case line =>
    rw [step_of_inputs_cons hin, takeInput_resetLine, Host.Outcome.next.injEq] at h
    exact h ▸ setResetLine_keeps (P := fun u => u.txout = s.txout) (fun _ _ hu => hu) level rfl

/-! ### Which command writes which field of STATUS (R36, R39) -/

theorem Effect.errs_unchanged {i : Instr} {s done : State} (h : Effect s i done) (hi : i ≠ .sysReset) :
    done.errs = s.errs := by
  cases h with
  | sysReset => exact absurd rfl hi
  | _ => rfl

/-- Settles O43: a refusal sets ERRS, and of the effects only that of SYS.RESET writes it. -/
theorem stickyErrorFlag : Obligations.StickyErrorFlag := by
  refine ⟨fun w s t h ht => ?refused, fun w s t h ht hw => ?completed, fun w s t h hw => ?sysReset, fun _ => rfl⟩
  case refused =>
    obtain ⟨code, -, rfl⟩ | ⟨i, done, -, -, rfl⟩ := performWord_performed h
    · rfl
    · exact absurd rfl ht
  case completed =>
    obtain ⟨code, hcode, rfl⟩ | ⟨i, done, hi, he, rfl⟩ := performWord_performed h
    · exact absurd ht hcode
    · exact he.errs_unchanged fun hs => hw (hs ▸ hi)
  case sysReset =>
    rw [performWord_of_decode_ok hw] at h
    rw [← complete_next.mp h]
    rfl

/-- Settles O44: a refusal leaves these fields, and the effect of a completed command is read off its update. -/
theorem statusFieldsWrittenAsTabled : Obligations.StatusFieldsWrittenAsTabled := by
  intro i s t h
  constructor
  · intro ht
    obtain ⟨code, -, rfl⟩ := exec_refused h ht
    exact ⟨rfl, rfl, rfl, rfl, rfl⟩
  · intro ht
    obtain ⟨done, he, rfl⟩ := exec_completed h ht
    cases he with
    | txControl hi hp => cases hi <;> exact ⟨rfl, rfl, rfl, rfl, rfl⟩
    | rxCtlEnds b v hr hv => exact ⟨rfl, rfl, rfl, fun hn => absurd rfl hn⟩
    | rxHeaderBad b hr hh => exact ⟨rfl, rfl, rfl, fun hn => absurd rfl hn⟩
    | rxCrcLow b hr => exact ⟨rfl, rfl, rfl, fun hn => absurd rfl hn⟩
    | rxCtlData | rxSeq | rxHeaderOk | rxPay | rxPayLast | rxCrcHigh => exact ⟨rfl, rfl, rfl, fun _ => rfl⟩
    | _ => exact ⟨rfl, rfl, rfl, rfl, rfl⟩

/-! ### What each unit's commands leave unchanged -/

theorem exec_crc_frame {i : Instr} {s t : State} (hi : isCrcCommand i = true) (h : exec i s = .next t) :
    t = { s with crc := t.crc, err := .ok } := by
  cases i with
  | crcClr | crcByte => rw [← complete_next.mp h]; rfl
  | _ => cases hi

theorem exec_tx_frame {i : Instr} {s t : State} (hi : isTxCommand i = true) (h : exec i s = .next t) :
    t = { s with
      txst := t.txst, txcrc := t.txcrc, txcnt := t.txcnt, txout := t.txout, err := t.err, errs := t.errs } := by
  obtain ⟨code, -, rfl⟩ | ⟨done, he, rfl⟩ := exec_next h
  · rfl
  · cases he with
    | txSoh | txData | txEnd | txControl => rfl
    | _ => cases hi

theorem exec_rx_frame {i : Instr} {s t : State} (hi : isRxCommand i = true) (h : exec i s = .next t) :
    t = { s with
      rxst := t.rxst, rxv := t.rxv, rxexp := t.rxexp, rxctl := t.rxctl, rxseq := t.rxseq, rxcpl := t.rxcpl,
      rxcnt := t.rxcnt, rxcrc := t.rxcrc, rxrcrc := t.rxrcrc, err := t.err, errs := t.errs } := by
  obtain ⟨code, -, rfl⟩ | ⟨done, he, rfl⟩ := exec_next h
  · rfl
  · cases he with
    | sysReset | crcClr | crcByte | txSoh | txData | txEnd | rxResp => cases hi
    | txControl hc hp => cases hc <;> cases hi
    | _ => rfl

theorem exec_resp_frame {i : Instr} {s t : State} (hi : isRespCommand i = true) (h : exec i s = .next t) :
    t = { s with respb := t.respb, resp := t.resp, err := .ok } := by
  cases i with
  | rxResp => rw [← complete_next.mp h]; rfl
  | _ => cases hi

theorem exec_port_frame {i : Instr} {s t : State} (h : exec i s = .next t) :
    t.phase = s.phase ∧ t.inputs = s.inputs := by
  obtain ⟨u, hu, hport⟩ := exec_answers i s
  obtain rfl : u = t := by simpa [hu] using h
  exact hport

/-- Settles O45, unit by unit. -/
theorem eachCommandWritesOnlyItsUnit : Obligations.EachCommandWritesOnlyItsUnit := by
  intro i s t h
  obtain ⟨hphase, hinputs⟩ := exec_port_frame h
  exact ⟨hphase, hinputs, (exec_crc_frame · h), (exec_tx_frame · h), (exec_rx_frame · h), (exec_resp_frame · h)⟩

/-! ### Independence of the units (R179) -/

/-- Two outcomes are next states with the same value of `view`. -/
def AgreeOn {α : Type} (view : State → α) (o o' : Host.Outcome State Fault Refusal) : Prop :=
  ∃ t t', o = .next t ∧ o' = .next t' ∧ view t = view t'

/-- `view` holds none of the error fields, which every command may write. -/
def IgnoresErrors {α : Type} (view : State → α) : Prop :=
  (∀ s code, view (s.withError code) = view s) ∧ ∀ s, view s.withOk = view s

section AgreeOn

variable {α : Type} {view : State → α} {s s' : State}

theorem raiseCmdError_agree (hview : IgnoresErrors view) (code : ErrCode) (h : view s = view s') :
    AgreeOn view (raiseCmdError code s) (raiseCmdError code s') :=
  ⟨_, _, rfl, rfl, by rw [hview.1, hview.1, h]⟩

theorem complete_agree (hview : IgnoresErrors view) (h : view s = view s') :
    AgreeOn view (complete s) (complete s') :=
  ⟨_, _, rfl, rfl, by rw [hview.2, hview.2, h]⟩

theorem unlessTxBusy_agree (hview : IgnoresErrors view) (hp : s.txst = s'.txst) (h : view s = view s')
    {done done' : State} (hd : view done = view done') :
    AgreeOn view (unlessTxBusy s done) (unlessTxBusy s' done') := by
  unfold unlessTxBusy
  rw [← hp]
  cases s.txst with
  | pay => exact raiseCmdError_agree hview .busy h
  | idle => exact complete_agree hview hd

theorem ifTxBusy_agree (hview : IgnoresErrors view) (hp : s.txst = s'.txst) (h : view s = view s')
    {body body' : Host.Outcome State Fault Refusal} (hb : AgreeOn view body body') :
    AgreeOn view (ifTxBusy s body) (ifTxBusy s' body') := by
  unfold ifTxBusy
  rw [← hp]
  cases s.txst with
  | idle => exact raiseCmdError_agree hview .state h
  | pay => exact hb

/-- A unit whose registers no other command writes, and whose own commands read no others, holds after a list of
commands what it holds after its own commands alone. -/
theorem execAll_filter_agree {own : Instr → Bool}
    (hframe : ∀ i s t, own i = false → exec i s = .next t → view t = view s)
    (hlocal : ∀ i s s', own i = true → view s = view s' → AgreeOn view (exec i s) (exec i s'))
    (is : List Instr) (h : view s = view s') : AgreeOn view (execAll is s) (execAll (is.filter own) s') := by
  induction is generalizing s s' with
  | nil => exact ⟨s, s', rfl, rfl, h⟩
  | cons i is ih =>
    cases hi : own i with
    | true =>
      obtain ⟨t, t', ht, ht', hv⟩ := hlocal i s s' hi h
      simpa [execAll, hi, ht, ht'] using ih hv
    | false =>
      obtain ⟨t, ht, -⟩ := exec_answers i s
      simpa [execAll, hi, ht] using ih ((hframe i s t hi ht).trans h)

end AgreeOn

theorem crc_local (i : Instr) (s s' : State) (hi : (isCrcCommand i || i == .sysReset) = true) (h : s.crc = s'.crc) :
    AgreeOn State.crc (exec i s) (exec i s') := by
  have hview : IgnoresErrors State.crc := ⟨fun _ _ => rfl, fun _ => rfl⟩
  cases i with
  | sysReset | crcClr => exact complete_agree hview rfl
  | crcByte b => exact complete_agree hview (congrArg (upd16 · b) h)
  | _ => cases hi

theorem tx_local (i : Instr) (s s' : State) (hi : (isTxCommand i || i == .sysReset) = true)
    (h : txView s = txView s') : AgreeOn txView (exec i s) (exec i s') := by
  have hview : IgnoresErrors txView := ⟨fun _ _ => rfl, fun _ => rfl⟩
  obtain ⟨hp, hcrc, hcnt, hout⟩ : s.txst = s'.txst ∧ s.txcrc = s'.txcrc ∧ s.txcnt = s'.txcnt ∧ s.txout = s'.txout := by
    simpa [txView] using h
  cases i with
  | sysReset => exact complete_agree hview (by simp [txView, hout])
  | txSoh sn => exact unlessTxBusy_agree hview hp h (by simp [txView, hout])
  | txAck | txNak | txEot | txEtb | txCan | txSync =>
    exact unlessTxBusy_agree hview hp h (by simp [txView, hp, hcrc, hcnt, hout])
  | txData b =>
    refine ifTxBusy_agree hview hp h ?_
    rw [hcnt]
    split
    · exact raiseCmdError_agree hview .full h
    · exact complete_agree hview (by simp [txView, hp, hcrc, hout])
  | txEnd =>
    exact ifTxBusy_agree hview hp h (complete_agree hview (by simp [txView, State.paddedTxcrc, hcrc, hcnt, hout]))
  | _ => cases hi

theorem rxView_eq_iff {s s' : State} :
    rxView s = rxView s' ↔
      s.rxst = s'.rxst ∧ s.rxv = s'.rxv ∧ s.rxexp = s'.rxexp ∧ s.rxctl = s'.rxctl ∧ s.rxseq = s'.rxseq ∧
        s.rxcpl = s'.rxcpl ∧ s.rxcnt = s'.rxcnt ∧ s.rxcrc = s'.rxcrc ∧ s.rxrcrc = s'.rxrcrc := by
  simp [rxView]

theorem ignoresErrors_rxView : IgnoresErrors rxView := ⟨fun _ _ => rfl, fun _ => rfl⟩

theorem execRxByte_agree (b : Byte) {s s' : State} (h : rxView s = rxView s') :
    AgreeOn rxView (execRxByte b s) (execRxByte b s') := by
  obtain ⟨hst, hv, hexp, hctl, hseq, hcpl, hcnt, hcrc, hrcrc⟩ := rxView_eq_iff.mp h
  unfold execRxByte
  rw [← hst]
  cases hr : s.rxst with
  | idle => exact raiseCmdError_agree ignoresErrors_rxView .state h
  | ctl =>
    refine complete_agree ignoresErrors_rxView ?_
    unfold rxCtl
    split <;> simp_all [rxView]
  | seq => exact complete_agree ignoresErrors_rxView (by simp_all [rxView, rxSeq])
  | cpl =>
    refine complete_agree ignoresErrors_rxView ?_
    unfold rxCpl
    rw [← hexp, ← hseq]
    split <;> simp_all [rxView]
  | pay => exact complete_agree ignoresErrors_rxView (by simp_all [rxView, rxPay])
  | crcH => exact complete_agree ignoresErrors_rxView (by simp_all [rxView, rxCrcH])
  | crcL => exact complete_agree ignoresErrors_rxView (by simp_all [rxView, rxCrcL])

theorem rx_local (i : Instr) (s s' : State) (hi : (isRxCommand i || i == .sysReset) = true)
    (h : rxView s = rxView s') : AgreeOn rxView (exec i s) (exec i s') := by
  cases i with
  | sysReset | rxStart => exact complete_agree ignoresErrors_rxView rfl
  | rxByte b => exact execRxByte_agree b h
  | _ => cases hi

theorem resp_local (i : Instr) (s s' : State) (hi : (isRespCommand i || i == .sysReset) = true)
    (_ : respView s = respView s') : AgreeOn respView (exec i s) (exec i s') := by
  have hview : IgnoresErrors respView := ⟨fun _ _ => rfl, fun _ => rfl⟩
  cases i with
  | sysReset | rxResp => exact complete_agree hview rfl
  | _ => cases hi

/-- Every command but SYS.RESET belongs to a unit. -/
theorem unit_of_command (i : Instr) :
    i = .sysReset ∨ isCrcCommand i = true ∨ isTxCommand i = true ∨ isRxCommand i = true ∨ isRespCommand i = true := by
  cases i <;> simp [isCrcCommand, isTxCommand, isRxCommand, isRespCommand]

/-- A view that the commands of every other unit leave unchanged is changed by none but its own and SYS.RESET. -/
theorem view_unchanged {α : Type} {view : State → α} {own : Instr → Bool} {i : Instr} {s t : State}
    (hi : (own i || i == .sysReset) = false) (hcrc : isCrcCommand i = true → own i = true ∨ view t = view s)
    (htx : isTxCommand i = true → own i = true ∨ view t = view s)
    (hrx : isRxCommand i = true → own i = true ∨ view t = view s)
    (hresp : isRespCommand i = true → own i = true ∨ view t = view s) : view t = view s := by
  simp only [Bool.or_eq_false_iff, beq_eq_false_iff_ne] at hi
  obtain ⟨hown, hreset⟩ := hi
  have hunit : own i = true ∨ view t = view s := by
    obtain h | h | h | h | h := unit_of_command i
    · exact absurd h hreset
    · exact hcrc h
    · exact htx h
    · exact hrx h
    · exact hresp h
  exact hunit.resolve_left (Bool.eq_false_iff.mp hown)

theorem crc_unchanged (i : Instr) (s t : State) (hi : (isCrcCommand i || i == .sysReset) = false)
    (h : exec i s = .next t) : t.crc = s.crc :=
  view_unchanged hi .inl (fun htx => .inr (congrArg State.crc (exec_tx_frame htx h) :))
    (fun hrx => .inr (congrArg State.crc (exec_rx_frame hrx h) :))
    (fun hresp => .inr (congrArg State.crc (exec_resp_frame hresp h) :))

theorem txView_unchanged (i : Instr) (s t : State) (hi : (isTxCommand i || i == .sysReset) = false)
    (h : exec i s = .next t) : txView t = txView s :=
  view_unchanged hi (fun hcrc => .inr (congrArg txView (exec_crc_frame hcrc h) :)) .inl
    (fun hrx => .inr (congrArg txView (exec_rx_frame hrx h) :))
    (fun hresp => .inr (congrArg txView (exec_resp_frame hresp h) :))

theorem rxView_unchanged (i : Instr) (s t : State) (hi : (isRxCommand i || i == .sysReset) = false)
    (h : exec i s = .next t) : rxView t = rxView s :=
  view_unchanged hi (fun hcrc => .inr (congrArg rxView (exec_crc_frame hcrc h) :))
    (fun htx => .inr (congrArg rxView (exec_tx_frame htx h) :)) .inl
    (fun hresp => .inr (congrArg rxView (exec_resp_frame hresp h) :))

theorem respView_unchanged (i : Instr) (s t : State) (hi : (isRespCommand i || i == .sysReset) = false)
    (h : exec i s = .next t) : respView t = respView s :=
  view_unchanged hi (fun hcrc => .inr (congrArg respView (exec_crc_frame hcrc h) :))
    (fun htx => .inr (congrArg respView (exec_tx_frame htx h) :))
    (fun hrx => .inr (congrArg respView (exec_rx_frame hrx h) :)) .inl

/-- Settles O46: for each unit, the others' commands leave its registers and its own commands read no others. -/
theorem unitsDoNotInterfere : Obligations.UnitsDoNotInterfere := by
  intro is s
  obtain ⟨t, tc, ht, hc, hcrc⟩ := execAll_filter_agree (view := State.crc) crc_unchanged crc_local is (s := s) rfl
  obtain ⟨t₁, tt, ht₁, htt, htx⟩ := execAll_filter_agree txView_unchanged tx_local is (s := s) rfl
  obtain ⟨t₂, tr, ht₂, hr, hrx⟩ := execAll_filter_agree rxView_unchanged rx_local is (s := s) rfl
  obtain ⟨t₃, tp, ht₃, hp, hresp⟩ := execAll_filter_agree respView_unchanged resp_local is (s := s) rfl
  obtain rfl : t = t₁ := by simpa [ht] using ht₁
  obtain rfl : t = t₂ := by simpa [ht] using ht₂
  obtain rfl : t = t₃ := by simpa [ht] using ht₃
  exact ⟨t, tc, tt, tr, tp, ht, hc, hcrc, htt, htx, hr, hrx, hp, hresp⟩

end Sys2Proof.Machine

/-! # The command port over a list of words, and the read port (spec 20_memory.md R54, R56)

A command neither reads nor writes the inputs, so it commutes with replacing them; with that, running the steps of
presented words is performing their commands. -/

namespace Sys2Proof.Machine

/-! ### The word of a command decodes to it -/

theorem decode_toWord (c : Cmd16) : decode c.toWord = decodeFields c.op c.arg := by
  have h := Laws.ofWord_toWord c
  rw [← congrArg Cmd16.op h, ← congrArg Cmd16.arg h]
  rfl

@[simp] theorem decode_encode (i : Instr) : decode (encode i) = .ok i :=
  (decode_toWord (fieldsOf i)).trans (by cases i <;> rfl)

/-! ### Commands do not look at the inputs -/

/-- The outcome with the inputs of its next state replaced. -/
def outcomeWithInputs (rest : List PortEvent) :
    Host.Outcome State Fault Refusal → Host.Outcome State Fault Refusal
  | .next t => .next (t.withInputs rest)
  | .fault r => .fault r
  | .refused r => .refused r

section

variable (s : State) (rest : List PortEvent)

theorem unlessTxBusy_withInputs {done done' : State} (h : done' = done.withInputs rest) :
    unlessTxBusy (s.withInputs rest) done' = outcomeWithInputs rest (unlessTxBusy s done) := by
  simp only [unlessTxBusy, State.withInputs_txst, h]
  cases s.txst <;> rfl

theorem ifTxBusy_withInputs {body body' : Host.Outcome State Fault Refusal}
    (h : body' = outcomeWithInputs rest body) :
    ifTxBusy (s.withInputs rest) body' = outcomeWithInputs rest (ifTxBusy s body) := by
  simp only [ifTxBusy, State.withInputs_txst, h]
  cases s.txst <;> rfl

theorem execTxData_withInputs (b : Byte) :
    execTxData b (s.withInputs rest) = outcomeWithInputs rest (execTxData b s) := by
  refine ifTxBusy_withInputs s rest ?_
  rw [State.withInputs_txcnt]
  split <;> rfl

theorem rxCtl_withInputs (b : Byte) : rxCtl b (s.withInputs rest) = (rxCtl b s).withInputs rest := by
  unfold rxCtl
  split <;> rfl

theorem rxCpl_withInputs (b : Byte) : rxCpl b (s.withInputs rest) = (rxCpl b s).withInputs rest := by
  unfold rxCpl
  rw [State.withInputs_rxexp, State.withInputs_rxseq]
  cases hdrOk s.rxexp s.rxseq b <;> rfl

theorem execRxByte_withInputs (b : Byte) :
    execRxByte b (s.withInputs rest) = outcomeWithInputs rest (execRxByte b s) := by
  simp only [execRxByte, State.withInputs_rxst, rxCtl_withInputs, rxCpl_withInputs]
  cases s.rxst <;> rfl

/-- A command performed with other inputs presented does the same and leaves those inputs (log 1). -/
theorem exec_withInputs (i : Instr) : exec i (s.withInputs rest) = outcomeWithInputs rest (exec i s) := by
  cases i with
  | sysReset | crcClr | crcByte | rxStart | rxResp => rfl
  | txSoh | txAck | txNak | txEot | txEtb | txCan | txSync => exact unlessTxBusy_withInputs s rest rfl
  | txData b => exact execTxData_withInputs s rest b
  | txEnd => exact ifTxBusy_withInputs s rest rfl
  | rxByte b => exact execRxByte_withInputs s rest b

end

/-! ### Steps over presented words -/

theorem step_encode_of_released {s : State} {i : Instr} {more : List PortEvent} (hp : s.phase = .released)
    (hin : s.inputs = .command (encode i) :: more) : step s = exec i (s.withInputs more) :=
  (step_command_of_released hp hin).trans (performWord_of_decode_ok (decode_encode i) _)

theorem run_succ_of_step {s t : State} (h : step s = .next t) (k : Nat) :
    Host.Core.run core (k + 1) s = Host.Core.run core k t := by
  have hcore : core.step s = .next t := h
  simp only [Host.Core.run, hcore]

theorem execAll_cons_of_exec {i : Instr} {s t : State} (h : exec i s = .next t) (is : List Instr) :
    execAll (i :: is) s = execAll is t := by
  simp only [execAll, h]

/-- The step performs the oldest command with the later inputs still presented, and the command does the same with any
other inputs `rest` in their place. -/
theorem step_encode_next {s : State} {i : Instr} {more : List PortEvent} (hp : s.phase = .released)
    (hin : s.inputs = .command (encode i) :: more) (rest : List PortEvent) :
    ∃ t, step s = .next t ∧ t.phase = .released ∧ t.inputs = more ∧
      exec i (s.withInputs rest) = .next (t.withInputs rest) := by
  obtain ⟨t, ht, hphase, hinputs⟩ := exec_answers i (s.withInputs more)
  have hexec : exec i (s.withInputs rest) = outcomeWithInputs rest (exec i (s.withInputs more)) :=
    exec_withInputs (s.withInputs more) rest i
  rw [ht] at hexec
  exact ⟨t, (step_encode_of_released hp hin).trans ht, hphase.trans hp, hinputs, hexec⟩

/-- Settles O11, by induction on the commands: the first step performs the first command, and leaves the words of the
others presented. -/
theorem presentedCommandsArePerformedInOrder : Obligations.PresentedCommandsArePerformedInOrder := by
  intro is
  induction is with
  | nil =>
    intro s rest _ hin
    obtain rfl : s.inputs = rest := hin
    rfl
  | cons i is ih =>
    intro s rest hp hin
    obtain ⟨t, hstep, hphase, hinputs, hexec⟩ := step_encode_next hp hin rest
    have hrun : Host.Core.run core is.length t = execAll is (t.withInputs rest) := ih t rest hphase hinputs
    exact (run_succ_of_step hstep is.length).trans (hrun.trans (execAll_cons_of_exec hexec is).symm)

/-! ### The read port -/

@[simp] theorem zext16_toNat (v : Byte) : (zext16 v).toNat = v.toNat :=
  BitVec.toNat_setWidth_of_le (by decide)

theorem read_reserved (s : State) {i : BitVec 4} (hi : 0xC#4 ≤ i) : s.read i = 0x0000#16 := by
  obtain rfl | rfl | rfl | rfl : i = 0xC#4 ∨ i = 0xD#4 ∨ i = 0xE#4 ∨ i = 0xF#4 := by bv_omega
  all_goals rfl

/-- Settles O13: a 16-bit register is read as it is, an 8-bit one zero-extended, which keeps its value. -/
theorem readPortAnswersTheIndexedRegister : Obligations.ReadPortAnswersTheIndexedRegister := fun s =>
  ⟨rfl, rfl, rfl, zext16_toNat s.txcnt, rfl, rfl, zext16_toNat s.rxcnt, zext16_toNat s.rxexp, zext16_toNat s.rxctl,
    zext16_toNat s.rxseq, zext16_toNat s.rxcpl, zext16_toNat s.respb, fun _ hi => read_reserved s hi⟩

end Sys2Proof.Machine

/-! # Command words and their encoding (spec 30_encoding.md R60 to R64)

A word is its two fields, and a decoded command has the fields of its word: so decoding inverts encoding, the legal
words are those that pass the two checks of R63, and their number is a sum over the operation codes. -/

namespace Sys2Proof.Machine

open Sys2Proof.Claims

/-! ### Words and their fields -/

theorem ofWord_injective : Function.Injective Cmd16.ofWord := by
  intro w v h
  have hop : opOf w = opOf v := congrArg Cmd16.op h
  have harg : argOf w = argOf v := congrArg Cmd16.arg h
  calc w = opOf w ++ argOf w := (BitVec.extractLsb'_append_extractLsb' (w := 8) (len := 8)).symm
    _ = opOf v ++ argOf v := by rw [hop, harg]
    _ = v := BitVec.extractLsb'_append_extractLsb' (w := 8) (len := 8)

theorem decode_append (op arg : Byte) : decode (op ++ arg) = decodeFields op arg :=
  congrArg₂ decodeFields BitVec.extractLsb'_append_eq_left BitVec.extractLsb'_append_eq_right

/-! ### The opcode map -/

theorem decodeZeroArg_ok_iff {i j : Instr} {mnemonic : String} {arg : Byte} :
    decodeZeroArg i mnemonic arg = .ok j ↔ arg = 0 ∧ i = j := by
  unfold decodeZeroArg
  split <;> simp_all

theorem eq_ofNat_of_toNat_eq {op : Byte} {n : Nat} (h : op.toNat = n) : op = BitVec.ofNat 8 n := by
  rw [← h, BitVec.ofNat_toNat, BitVec.setWidth_eq]

/-- A decoded command has the fields it was decoded from: R62's rows read from right to left. The last case is an
unassigned OP. -/
theorem fieldsOf_of_decodeFields {op arg : Byte} {i : Instr} (h : decodeFields op arg = .ok i) :
    fieldsOf i = { op, arg } := by
  unfold decodeFields at h
  split at h
  case h_16 => cases h
  all_goals obtain rfl := eq_ofNat_of_toNat_eq ‹op.toNat = _›
  case h_3 | h_4 | h_5 | h_13 | h_14 | h_15 =>
    cases h
    rfl
  all_goals
    obtain ⟨rfl, rfl⟩ := decodeZeroArg_ok_iff.mp h
    rfl

theorem decode_eq_ok_iff {w : Half} {i : Instr} : decode w = .ok i ↔ encode i = w := by
  constructor
  · intro h
    have hfields : Cmd16.ofWord (encode i) = Cmd16.ofWord w :=
      (Laws.ofWord_toWord (fieldsOf i)).trans (fieldsOf_of_decodeFields h)
    exact ofWord_injective hfields
  · rintro rfl
    exact decode_encode i

/-- Settles O1: a word is its fields, and a decoded command has the fields of its word. -/
theorem decodeInvertsEncode : Obligations.DecodeInvertsEncode := fun _ _ => decode_eq_ok_iff

/-- Settles O4: each word is the encoding of its command. -/
theorem tableWordsDecodeToTheirCommands : Obligations.TableWordsDecodeToTheirCommands := by
  simp only [Obligations.TableWordsDecodeToTheirCommands, decode_eq_ok_iff]
  decide

/-! ### The legal words (R63) -/

theorem mem_operandOps {op : Byte} :
    op ∈ operandOps ↔ op.toNat = 0x11 ∨ op.toNat = 0x20 ∨ op.toNat = 0x21 ∨ op.toNat = 0x40 ∨ op.toNat = 0x41 ∨
      op.toNat = 0x42 := by
  simp [operandOps, ← BitVec.toNat_inj]

theorem mem_zeroArgOps {op : Byte} :
    op ∈ zeroArgOps ↔ op.toNat = 0x01 ∨ op.toNat = 0x10 ∨ op.toNat = 0x22 ∨ (0x30 ≤ op.toNat ∧ op.toNat ≤ 0x35) := by
  simp only [zeroArgOps, List.mem_cons, List.not_mem_nil, or_false, ← BitVec.toNat_inj, BitVec.ofNat_eq_ofNat,
    BitVec.reduceToNat]
  omega

theorem not_mem_zeroArgOps {op : Byte} (h : op ∈ operandOps) : op ∉ zeroArgOps := by
  rw [mem_operandOps] at h
  rw [mem_zeroArgOps]
  omega

theorem wellFormed_iff {c : Cmd16} :
    c.wellFormed = true ↔ c.op ∈ operandOps ∨ (c.op ∈ zeroArgOps ∧ c.arg = 0) := by
  have hdisjoint : c.op ∈ operandOps → c.op ∉ zeroArgOps := not_mem_zeroArgOps
  simp only [Cmd16.wellFormed, Cmd16.opAssigned, Cmd16.argAllowed, Bool.and_eq_true, Bool.or_eq_true,
    Bool.not_eq_true', List.contains_eq_mem, decide_eq_true_eq, decide_eq_false_iff_not, beq_iff_eq]
  tauto

theorem fieldsOf_wellFormed (i : Instr) : (fieldsOf i).wellFormed = true := by
  rw [wellFormed_iff]
  cases i with
  | crcByte | txSoh | txData | rxStart | rxByte | rxResp => exact .inl (by simp [fieldsOf, operandOps])
  | _ => exact .inr (by decide)

theorem exists_fieldsOf_eq {c : Cmd16} (h : c.wellFormed = true) : ∃ i, fieldsOf i = c := by
  obtain ⟨op, arg⟩ := c
  rw [wellFormed_iff] at h
  obtain hop | ⟨hop, rfl : arg = 0⟩ := h
  · simp only [operandOps, List.mem_cons, List.not_mem_nil, or_false] at hop
    obtain rfl | rfl | rfl | rfl | rfl | rfl := hop
    exacts [⟨.crcByte arg, rfl⟩, ⟨.txSoh arg, rfl⟩, ⟨.txData arg, rfl⟩, ⟨.rxStart arg, rfl⟩, ⟨.rxByte arg, rfl⟩,
      ⟨.rxResp arg, rfl⟩]
  · simp only [zeroArgOps, List.mem_cons, List.not_mem_nil, or_false] at hop
    obtain rfl | rfl | rfl | rfl | rfl | rfl | rfl | rfl | rfl := hop
    exacts [⟨.sysReset, rfl⟩, ⟨.crcClr, rfl⟩, ⟨.txEnd, rfl⟩, ⟨.txAck, rfl⟩, ⟨.txNak, rfl⟩, ⟨.txEot, rfl⟩,
      ⟨.txEtb, rfl⟩, ⟨.txCan, rfl⟩, ⟨.txSync, rfl⟩]

theorem exists_decode_ok_iff {w : Half} : (∃ i, decode w = .ok i) ↔ (Cmd16.ofWord w).wellFormed = true := by
  constructor
  · rintro ⟨i, h⟩
    have hfields : fieldsOf i = Cmd16.ofWord w := fieldsOf_of_decodeFields h
    exact hfields ▸ fieldsOf_wellFormed i
  · intro h
    obtain ⟨i, hi⟩ := exists_fieldsOf_eq h
    refine ⟨i, decode_eq_ok_iff.mpr (ofWord_injective ?_)⟩
    exact (Laws.ofWord_toWord (fieldsOf i)).trans hi

theorem isOk_decode (w : Half) : (decode w).isOk = (Cmd16.ofWord w).wellFormed := by
  rw [Bool.eq_iff_iff, ← exists_decode_ok_iff]
  cases decode w <;> simp [Except.isOk, Except.toBool]

theorem exists_decode_error_iff {w : Half} : (∃ e, decode w = .error e) ↔ (Cmd16.ofWord w).wellFormed = false := by
  rw [← isOk_decode]
  cases decode w <;> simp [Except.isOk, Except.toBool]

/-! ### The number of legal words -/

/-- Counting block by block: `m` blocks of length `k`. -/
theorem countP_range_mul (p : Nat → Bool) (m k : Nat) :
    (List.range (m * k)).countP p =
      ((List.range m).map fun q => (List.range k).countP fun r => p (q * k + r)).sum := by
  induction m with
  | zero => simp
  | succ m ih =>
    rw [Nat.succ_mul, List.range_add, List.countP_append, List.countP_map, ih, List.range_succ, List.map_append,
      List.sum_append]
    simp [Function.comp_def]

theorem ofWord_ofNat (q : Nat) {r : Nat} (hr : r < 256) :
    Cmd16.ofWord (BitVec.ofNat 16 (q * 256 + r)) = { op := BitVec.ofNat 8 q, arg := BitVec.ofNat 8 r } := by
  simp only [Cmd16.ofWord, opOf, argOf, Cmd16.mk.injEq, ← BitVec.toNat_inj, BitVec.extractLsb'_toNat, BitVec.toNat_ofNat]
  omega

/-- The 256 bytes. -/
def allBytes : List Byte := (List.range 256).map (BitVec.ofNat 8)

theorem mem_allBytes (b : Byte) : b ∈ allBytes :=
  List.mem_map.mpr ⟨b.toNat, List.mem_range.mpr b.isLt, BitVec.ofNat_toNat 8 b |>.trans (BitVec.setWidth_eq b)⟩

theorem nodup_allBytes : allBytes.Nodup := by
  refine List.Nodup.map_on (fun m hm n hn h => ?_) List.nodup_range
  rw [List.mem_range] at hm hn
  simpa [← BitVec.toNat_inj, Nat.mod_eq_of_lt, hm, hn] using h

theorem countP_allBytes_mem {bs : List Byte} (h : bs.Nodup) : allBytes.countP (· ∈ bs) = bs.length := by
  have hperm : (allBytes.filter (· ∈ bs)).Perm bs :=
    (List.perm_ext_iff_of_nodup (nodup_allBytes.filter _) h).mpr fun b => by simp [mem_allBytes]
  rw [List.countP_eq_length_filter, hperm.length_eq]

/-- How many of the 256 words with this OP are legal (R63). -/
def legalArgs (op : Byte) : Nat := if op ∈ operandOps then 256 else if op ∈ zeroArgOps then 1 else 0

theorem countP_wellFormed (op : Byte) :
    allBytes.countP (fun arg => Cmd16.wellFormed { op, arg }) = legalArgs op := by
  unfold legalArgs
  split
  case isTrue hop =>
    have hall : ∀ arg ∈ allBytes, Cmd16.wellFormed { op, arg } = true := fun _ _ => wellFormed_iff.mpr (.inl hop)
    rw [List.countP_eq_length.mpr hall, allBytes, List.length_map, List.length_range]
  case isFalse hop =>
    split
    case isTrue hzero =>
      have hwf : ∀ arg, Cmd16.wellFormed { op, arg } = decide (arg ∈ [(0 : Byte)]) := fun arg => by
        rw [Bool.eq_iff_iff, wellFormed_iff]
        simp [hop, hzero]
      simp only [hwf, countP_allBytes_mem (List.nodup_singleton _), List.length_singleton]
    case isFalse hzero => simp [List.countP_eq_zero, wellFormed_iff, hop, hzero]

theorem sum_map_legalArgs (ops : List Byte) :
    (ops.map legalArgs).sum = 256 * ops.countP (· ∈ operandOps) + ops.countP (· ∈ zeroArgOps) := by
  induction ops with
  | nil => rfl
  | cons op ops ih =>
    rw [List.map_cons, List.sum_cons, ih, List.countP_cons, List.countP_cons, legalArgs]
    by_cases hop : op ∈ operandOps
    · simp only [hop, not_mem_zeroArgOps hop, decide_true, decide_false, if_true, Bool.false_eq_true, if_false]
      omega
    · simp only [hop, decide_false, Bool.false_eq_true, if_false, decide_eq_true_eq]
      omega

/-- The legal words are 256 for each of the six operand commands and one for each of the nine zero-ARG commands. -/
theorem countP_isOk_decode : (List.range 65536).countP (fun n => (decode (BitVec.ofNat 16 n)).isOk) = 1545 := by
  have hblock : ∀ q, (List.range 256).countP (fun r => (decode (BitVec.ofNat 16 (q * 256 + r))).isOk) =
      legalArgs (BitVec.ofNat 8 q) := by
    intro q
    rw [← countP_wellFormed, allBytes, List.countP_map]
    refine List.countP_congr fun r hr => ?_
    rw [isOk_decode, ofWord_ofNat q (List.mem_range.mp hr), Function.comp_apply]
  calc _ = _ := countP_range_mul _ 256 256
    _ = (allBytes.map legalArgs).sum := by simp only [hblock, allBytes, List.map_map, Function.comp_def]
    _ = 256 * operandOps.length + zeroArgOps.length := by
      rw [sum_map_legalArgs, countP_allBytes_mem (by decide), countP_allBytes_mem (by decide)]

/-- Stated for any list and test: `simp` and `omega` on the sum of two counts over 65536 words would have the kernel
evaluate them. -/
theorem countP_not_eq_of_countP_eq {α : Type} {p : α → Bool} {xs : List α} {k : Nat} (h : xs.countP p = k) :
    xs.countP (fun x => !p x) = xs.length - k := by
  rw [xs.length_eq_countP_add_countP p, h]
  simp

theorem countP_not_isOk_decode :
    (List.range 65536).countP (fun n => !(decode (BitVec.ofNat 16 n)).isOk) = 63991 := by
  rw [countP_not_eq_of_countP_eq countP_isOk_decode, List.length_range]

/-- Settles O2: the words that decode are those that pass the checks of R63, each encodes its command, and their
number is counted by operation code. -/
theorem decoderAcceptsExactlyTheLegalWords : Obligations.DecoderAcceptsExactlyTheLegalWords := by
  refine ⟨fun w => exists_decode_ok_iff.trans wellFormed_iff, ?zeroArg, ?operand, countP_isOk_decode,
    countP_not_isOk_decode⟩
  case zeroArg =>
    simp only [decode_eq_ok_iff]
    decide
  case operand =>
    exact ⟨decode_append _, decode_append _, decode_append _, decode_append _, decode_append _, decode_append _⟩

/-! ### The illegal words (R64) -/

theorem illegalWord_iff {w : Half} : IllegalWord w ↔ (Cmd16.ofWord w).wellFormed = false := by
  have hop : (w.extractLsb' 8 8).toNat < 256 := BitVec.isLt _
  have harg : w.extractLsb' 0 8 = 0 ↔ (w.extractLsb' 0 8).toNat = 0 := BitVec.toNat_inj.symm
  rw [← Bool.not_eq_true, wellFormed_iff, mem_operandOps, mem_zeroArgOps]
  simp only [IllegalWord, Cmd16.ofWord, opOf, argOf, harg]
  omega

theorem exists_decode_error_iff_illegalWord {w : Half} : (∃ e, decode w = .error e) ↔ IllegalWord w :=
  exists_decode_error_iff.trans illegalWord_iff.symm

theorem performWord_of_illegalWord {w : Half} (h : IllegalWord w) (s : State) :
    performWord w s = .next (refusedWith .illegal s) := by
  obtain ⟨e, he⟩ := exists_decode_error_iff_illegalWord.mpr h
  exact performWord_of_decode_error he s

/-- Settles O3: the ranges of R64 are what fails the checks of R63, and the command port refuses a word that does not
decode. -/
theorem illegalWordOnlySetsTheErrorFields : Obligations.IllegalWordOnlySetsTheErrorFields :=
  ⟨fun _ => exists_decode_error_iff_illegalWord, fun _ s h => performWord_of_illegalWord h s⟩

/-! ### Lists of commands -/

theorem execAll_answers (is : List Instr) (s : State) : ∃ t, execAll is s = .next t := by
  induction is generalizing s with
  | nil => exact ⟨s, rfl⟩
  | cons i is ih =>
    obtain ⟨t, ht, -⟩ := exec_answers i s
    rw [execAll_cons_of_exec ht]
    exact ih t

theorem execAll_append {is : List Instr} {s t : State} (h : execAll is s = .next t) (js : List Instr) :
    execAll (is ++ js) s = execAll js t := by
  induction is generalizing s with
  | nil =>
    obtain rfl : s = t := by simpa [execAll] using h
    rfl
  | cons i is ih =>
    obtain ⟨u, hu, -⟩ := exec_answers i s
    rw [execAll_cons_of_exec hu] at h
    rw [List.cons_append, execAll_cons_of_exec hu]
    exact ih h

/-! ### Pseudo-instructions (R68) -/

theorem txCtrlCommand_of_not_mem {x : Byte} (h : x ∉ controlCommands.map fun p => p.2.2) : txCtrlCommand x = none := by
  simp only [controlCommands, List.map_cons, List.map_nil, List.mem_cons, List.not_mem_nil, or_false, not_or] at h
  obtain ⟨hack, hnak, heot, hetb, hcan, hsync⟩ := h
  simp only [txCtrlCommand, ackCode, nakCode, eotCode, etbCode, canCode, syncCode, hack, hnak, heot, hetb, hcan, hsync,
    if_false]

/-- Settles O50: the expansions are read off the table, and a list of commands always answers a next state, from which
the next list goes on. -/
theorem pseudoInstructionsExpand : Obligations.PseudoInstructionsExpand := by
  refine ⟨fun _ => rfl, fun _ _ hlen => if_pos hlen, fun _ _ hlen => if_neg hlen.not_ge, fun _ _ => rfl,
    fun _ _ _ => rfl, fun _ => ⟨rfl, rfl⟩, ?control, fun x hx => ?noControl, fun is js s => ?inOrder⟩
  case control => decide
  case noControl => simp only [Pseudo.expand, txCtrlCommand_of_not_mem hx]
  case inOrder =>
    obtain ⟨t, ht⟩ := execAll_answers is s
    obtain ⟨u, hu⟩ := execAll_answers js t
    exact ⟨t, u, ht, hu, (execAll_append ht js).trans hu⟩

/-! ### Mnemonics and their arguments (R67) -/

/-- The mnemonics of the nine zero-ARG commands of R62. -/
def zeroArgMnemonics : List (String × Instr) :=
  [("SYS.RESET", .sysReset), ("CRC.CLR", .crcClr), ("TX.END", .txEnd), ("TX.ACK", .txAck), ("TX.NAK", .txNak),
    ("TX.EOT", .txEot), ("TX.ETB", .txEtb), ("TX.CAN", .txCan), ("TX.SYNC", .txSync)]

/-- The mnemonics of the six operand commands of R62. -/
def operandMnemonics : List (String × (Byte → Instr)) :=
  [("CRC.BYTE", .crcByte), ("TX.SOH", .txSoh), ("TX.DATA", .txData), ("RX.START", .rxStart), ("RX.BYTE", .rxByte),
    ("RX.RESP", .rxResp)]

theorem mnemonicLine_zeroArg : ∀ p ∈ zeroArgMnemonics, mnemonicLine p.1 = zeroArgLine p.2 := by
  simp only [zeroArgMnemonics, List.forall_mem_cons]
  exact ⟨rfl, rfl, rfl, rfl, rfl, rfl, rfl, rfl, rfl, List.forall_mem_nil _⟩

theorem mnemonicLine_operand : ∀ p ∈ operandMnemonics, mnemonicLine p.1 = operandLine p.2 := by
  simp only [operandMnemonics, List.forall_mem_cons]
  exact ⟨rfl, rfl, rfl, rfl, rfl, rfl, List.forall_mem_nil _⟩

theorem argByte_word {cs : List Char} {n : Nat} (h : numberValue cs = some n) :
    argByte (.word cs) = if n ≤ 255 then .ok (BitVec.ofNat 8 n) else .error .outOfRange := by
  simp only [argByte, h]

/-- Settles O51: each mnemonic of R62 is checked as a zero-ARG or as an operand command. -/
theorem assemblerChecksArguments : Obligations.AssemblerChecksArguments := by
  refine ⟨fun p hp => ?zeroArg, fun b =>
    (List.forall_mem_map (l := operandMnemonics) (f := fun p => (p.1, p.2 b))).mpr fun p hp => ?operand,
    fun _ _ => argByte_word⟩
  case zeroArg =>
    rw [mnemonicLine_zeroArg p hp]
    exact ⟨rfl, fun _ _ => rfl⟩
  case operand =>
    rw [mnemonicLine_operand p hp]
    exact ⟨rfl, rfl⟩

end Sys2Proof.Machine

/-! # The CRC function and the CRC generator (spec 40_crc_generator.md R70 to R77)

A round is linear over GF(2), is a plain shift while the top bit is clear, and is multiplication by x modulo the
generator polynomial. Each fact is carried from one round to `upd16` and from there to the fold over a byte list; the
laws of the CRC are read off them. -/

namespace Sys2Proof.Machine

open Sys2Proof.Claims

/-! ### The generator's commands (R73 to R75) -/

theorem zeroArgEncoding_of_decodeFields {op : Byte} {i : Instr} {mnemonic : String}
    (h : ∀ arg, decodeFields op arg = decodeZeroArg i mnemonic arg) : ZeroArgEncoding op i := by
  have hdecode (arg : Byte) : decode (op ++ arg) = decodeZeroArg i mnemonic arg := (decode_append op arg).trans (h arg)
  exact ⟨hdecode 0, fun arg s harg => performWord_of_decode_error ((hdecode arg).trans (if_neg harg)) s⟩

theorem exec_crcClr (s : State) : exec .crcClr s = .next { s with crc := 0x0000, err := .ok } := rfl

theorem exec_crcByte (b : Byte) (s : State) :
    exec (.crcByte b) s = .next { s with crc := upd16 s.crc b, err := .ok } := rfl

/-- Settles O16: OP 0x10 and 0x11 are these commands' rows of R62, and the corner cases of R74 are computed. -/
theorem crcCommandsUpdateTheAccumulator : Obligations.CrcCommandsUpdateTheAccumulator :=
  ⟨zeroArgEncoding_of_decodeFields fun _ => rfl, decode_append 0x11, exec_crcClr, fun s b => exec_crcByte b s,
    by decide⟩

/-- Once ERR is OK, the bytes of `xs` fold into CRC and change nothing else. -/
theorem execAll_crcBytes (s : State) (c : Half) (xs : List Byte) :
    execAll (xs.map .crcByte) { s with crc := c, err := .ok } = .next { s with crc := crcFold c xs, err := .ok } := by
  induction xs generalizing c with
  | nil => rfl
  | cons b xs ih => exact (execAll_cons_of_exec (exec_crcByte b _) _).trans (ih (upd16 c b))

theorem execAll_crcBlockCommands (s : State) (xs : List Byte) :
    execAll (crcBlockCommands xs) s = .next { s with crc := crc16 xs, err := .ok } :=
  (execAll_cons_of_exec (exec_crcClr s) _).trans (execAll_crcBytes s crcInit xs)

/-- Settles O17: a block overwrites CRC and ERR alone, and CRC by a value that does not depend on the state, so a
second block changes nothing. -/
theorem crcBlockGivesTheCrcOfItsBytes : Obligations.CrcBlockGivesTheCrcOfItsBytes := by
  refine fun s xs => ⟨execAll_crcBlockCommands s xs, ?twice, fun hne => ?withoutClear⟩
  case twice => exact (execAll_append (execAll_crcBlockCommands s xs) _).trans (execAll_crcBlockCommands _ xs)
  case withoutClear =>
    cases xs with
    | nil => exact absurd rfl hne
    | cons b xs => exact (execAll_cons_of_exec (exec_crcByte b s) _).trans (execAll_crcBytes s _ xs)

/-! ### Linearity and concatenation (R76 b, c) -/

theorem crcRound_eq (c : Half) : crcRound c = (c <<< 1) ^^^ (if c.getLsbD 15 then crcPoly else 0) := by
  unfold crcRound
  split
  · rfl
  · exact BitVec.xor_zero.symm

theorem crcRound_xor (c d : Half) : crcRound (c ^^^ d) = crcRound c ^^^ crcRound d := by
  have reduction_xor (p q : Bool) :
      (if p ^^ q then crcPoly else 0) = (if p then crcPoly else 0) ^^^ (if q then crcPoly else 0) := by
    cases p <;> cases q <;> rfl
  simp only [crcRound_eq, BitVec.getLsbD_xor, BitVec.shiftLeft_xor_distrib, reduction_xor]
  ac_rfl

theorem crcRounds_xor (n : Nat) (c d : Half) : crcRounds n (c ^^^ d) = crcRounds n c ^^^ crcRounds n d := by
  induction n generalizing c d with
  | zero => rfl
  | succ n ih => simp only [crcRounds, crcRound_xor, ih]

theorem upd16_xor (c₁ c₂ : Half) (b₁ b₂ : Byte) :
    upd16 (c₁ ^^^ c₂) (b₁ ^^^ b₂) = upd16 c₁ b₁ ^^^ upd16 c₂ b₂ := by
  simp only [upd16, ← crcRounds_xor, BitVec.truncate_eq_setWidth, BitVec.setWidth_xor, BitVec.shiftLeft_xor_distrib]
  congr 1
  ac_rfl

theorem upd16_zero_zero : upd16 0 0 = 0 := by decide

theorem crcFold_zero_replicate_zero (n : Nat) : crcFold 0 (List.replicate n 0) = 0 := by
  induction n with
  | zero => rfl
  | succ n ih => rw [List.replicate_succ, crcFold_cons, upd16_zero_zero, ih]

theorem crcFold_append (c : Half) (xs ys : List Byte) : crcFold c (xs ++ ys) = crcFold (crcFold c xs) ys :=
  List.foldl_append

/-- Settles O18, law by law. -/
theorem crcIsLinearAndConcatenates : Obligations.CrcIsLinearAndConcatenates :=
  ⟨upd16_xor, crcFold_zero_replicate_zero, crcFold_append crcInit⟩

/-! ### The residue (R76 d) -/

theorem crcRound_eq_shiftLeft {c : Half} (h : c.toNat * 2 < 2 ^ 16) : crcRound c = c <<< 1 := by
  have htop : c.getLsbD 15 = false := Nat.testBit_lt_two_pow (by omega)
  simp only [crcRound, htop, Bool.false_eq_true, if_false]

/-- While no bit is shifted out the polynomial never enters. -/
theorem crcRounds_eq_shiftLeft {n : Nat} {c : Half} (h : c.toNat * 2 ^ n < 2 ^ 16) : crcRounds n c = c <<< n := by
  induction n generalizing c with
  | zero => exact (BitVec.shiftLeft_zero _).symm
  | succ n ih =>
    have hdouble : c.toNat * 2 * 2 ^ n < 2 ^ 16 := by rwa [mul_assoc, ← pow_succ']
    have hlt : c.toNat * 2 < 2 ^ 16 := (Nat.le_mul_of_pos_right _ (Nat.two_pow_pos n)).trans_lt hdouble
    have hshift : (c <<< 1).toNat = c.toNat * 2 := by
      rw [BitVec.toNat_shiftLeft, Nat.shiftLeft_eq, pow_one, Nat.mod_eq_of_lt hlt]
    rw [crcRounds, crcRound_eq_shiftLeft hlt, ih (hshift ▸ hdouble), ← BitVec.shiftLeft_add, Nat.add_comm]

theorem xor_high_byte (c : Half) : c ^^^ (zext16 (c.extractLsb' 8 8) <<< 8) = zext16 (c.extractLsb' 0 8) := by
  refine BitVec.eq_of_getLsbD_eq fun k hk => ?_
  by_cases hlow : k < 8
  · simp [zext16, hlow, hk]
  · simp [zext16, hlow, hk, show 8 + (k - 8) = k by omega, show k - 8 < 8 by omega]

/-- The high byte of the accumulator cancels itself and leaves the low byte on top, which then cancels itself too. -/
theorem crcFold_crcField (c : Half) : crcFold c (crcField c) = 0 := by
  have hfits : (zext16 (c.extractLsb' 0 8)).toNat * 2 ^ 8 < 2 ^ 16 := by
    rw [zext16_toNat]
    omega
  have hhigh : upd16 c (c.extractLsb' 8 8) = zext16 (c.extractLsb' 0 8) <<< 8 :=
    (congrArg (crcRounds 8) (xor_high_byte c)).trans (crcRounds_eq_shiftLeft hfits)
  calc crcFold c (crcField c) = upd16 (upd16 c (c.extractLsb' 8 8)) (c.extractLsb' 0 8) := rfl
    _ = crcRounds 8 (zext16 (c.extractLsb' 0 8) <<< 8 ^^^ zext16 (c.extractLsb' 0 8) <<< 8) := by rw [hhigh]; rfl
    _ = crcRounds 8 0 := congrArg (crcRounds 8) BitVec.xor_self
    _ = 0 := crcRounds_eq_shiftLeft (by decide)

/-- Settles O19: every accumulator folds to zero over its own field. -/
theorem crcResidueIsZero : Obligations.CrcResidueIsZero := fun xs =>
  (crcFold_append crcInit xs _).trans (crcFold_crcField (crc16 xs))

/-! ### The polynomial reading (R77) -/

section

open Polynomial AdjoinRoot

theorem halfPoly_zero : halfPoly 0 = 0 := by
  simp [halfPoly]

theorem halfPoly_xor (c d : Half) : halfPoly (c ^^^ d) = halfPoly c + halfPoly d := by
  simp only [halfPoly, ← Finset.sum_add_distrib, BitVec.getLsbD_xor]
  refine Finset.sum_congr rfl fun k _ => ?_
  cases c.getLsbD k <;> cases d.getLsbD k <;> simp [CharTwo.add_self_eq_zero]

theorem halfPoly_shiftLeft_one (c : Half) :
    halfPoly (c <<< 1) + (if c.getLsbD 15 then X ^ 16 else 0) = X * halfPoly c := by
  have hshift : halfPoly (c <<< 1) = ∑ k ∈ Finset.range 15, X * (if c.getLsbD k then X ^ k else 0) := by
    rw [halfPoly, Finset.sum_range_succ' _ 15]
    have hlow : (c <<< 1).getLsbD 0 = false := by simp
    simp only [hlow, Bool.false_eq_true, if_false, add_zero]
    refine Finset.sum_congr rfl fun k hk => ?_
    have hk : k < 15 := Finset.mem_range.mp hk
    have hbit : (c <<< 1).getLsbD (k + 1) = c.getLsbD k := by
      rw [BitVec.getLsbD_shiftLeft]
      simp [show k + 1 < 16 by omega]
    rw [hbit, mul_ite, mul_zero, ← pow_succ']
  rw [hshift, halfPoly, Finset.mul_sum, Finset.sum_range_succ _ 15, mul_ite, mul_zero, ← pow_succ']

theorem halfPoly_zext16_shiftLeft (b : Byte) : halfPoly (zext16 b <<< 8) = X ^ 8 * bytePoly b := by
  have hlow : ∀ k ∈ Finset.range 8, (if (zext16 b <<< 8).getLsbD k then X ^ k else 0 : (ZMod 2)[X]) = 0 := by
    intro k hk
    simp [Finset.mem_range.mp hk]
  rw [halfPoly, bytePoly, Finset.sum_range_add _ 8 8, Finset.sum_eq_zero hlow, zero_add, Finset.mul_sum]
  refine Finset.sum_congr rfl fun k hk => ?_
  have hk : k < 8 := Finset.mem_range.mp hk
  simp [zext16, show 8 + k < 16 by omega, pow_add]

theorem degree_halfPoly_lt (c : Half) : (halfPoly c).degree < 16 := by
  refine mem_degreeLT.mp (Submodule.sum_mem _ fun k hk => ?_)
  split
  · rw [mem_degreeLT, degree_X_pow]
    exact_mod_cast Finset.mem_range.mp hk
  · exact Submodule.zero_mem _

/-- G(x) of R77. -/
noncomputable def generatorPoly : (ZMod 2)[X] := X ^ 16 + X ^ 12 + X ^ 5 + 1

theorem halfPoly_crcPoly : halfPoly crcPoly = X ^ 12 + X ^ 5 + 1 := by
  have hsum : halfPoly crcPoly = 1 + X ^ 5 + X ^ 12 := by simp [halfPoly, crcPoly, Finset.sum_range_succ]
  rw [hsum]
  ring

/-- CRC_POLY is G(x) without its leading term. -/
theorem generatorPoly_eq : generatorPoly = X ^ 16 + halfPoly crcPoly := by
  rw [generatorPoly, halfPoly_crcPoly, add_assoc, add_assoc, add_assoc]

theorem generatorPoly_monic : generatorPoly.Monic := by
  rw [generatorPoly_eq]
  exact monic_X_pow_add (degree_halfPoly_lt _)

theorem degree_generatorPoly : generatorPoly.degree = 16 := by
  have hlead : (halfPoly crcPoly).degree < (X ^ 16 : (ZMod 2)[X]).degree :=
    (degree_halfPoly_lt _).trans_eq (degree_X_pow 16).symm
  rw [generatorPoly_eq, degree_add_eq_left_of_degree_lt hlead]
  exact degree_X_pow 16

theorem halfPoly_crcRound (c : Half) :
    halfPoly (crcRound c) = X * halfPoly c + (if c.getLsbD 15 then generatorPoly else 0) := by
  rw [crcRound_eq, halfPoly_xor, ← halfPoly_shiftLeft_one]
  split
  · rw [generatorPoly_eq]
    linear_combination - X ^ 16 * (CharTwo.two_eq_zero : (2 : (ZMod 2)[X]) = 0)
  · rw [halfPoly_zero, add_zero, add_zero]

/-! In the quotient by G(x) a round is multiplication by x. -/

theorem mk_halfPoly_crcRound (c : Half) :
    mk generatorPoly (halfPoly (crcRound c)) = mk generatorPoly (X * halfPoly c) := by
  rw [halfPoly_crcRound, map_add]
  split
  · rw [mk_self, add_zero]
  · rw [map_zero, add_zero]

theorem mk_halfPoly_crcRounds (n : Nat) (c : Half) :
    mk generatorPoly (halfPoly (crcRounds n c)) = mk generatorPoly (X ^ n * halfPoly c) := by
  induction n generalizing c with
  | zero => rw [crcRounds, pow_zero, one_mul]
  | succ n ih => rw [crcRounds, ih, map_mul, mk_halfPoly_crcRound, ← map_mul, pow_succ, mul_assoc]

theorem mk_halfPoly_upd16 (c : Half) (b : Byte) :
    mk generatorPoly (halfPoly (upd16 c b)) = mk generatorPoly (halfPoly c * X ^ 8 + bytePoly b * X ^ 16) := by
  have henter : halfPoly (c ^^^ zext16 b <<< 8) = halfPoly c + X ^ 8 * bytePoly b := by
    rw [halfPoly_xor, halfPoly_zext16_shiftLeft]
  refine (mk_halfPoly_crcRounds 8 (c ^^^ zext16 b <<< 8)).trans (congrArg _ ?_)
  rw [henter]
  ring

theorem mk_halfPoly_crcFold (c : Half) (xs : List Byte) :
    mk generatorPoly (halfPoly (crcFold c xs)) =
      mk generatorPoly (halfPoly c * X ^ (8 * xs.length) + messagePoly xs * X ^ 16) := by
  induction xs generalizing c with
  | nil => simp [messagePoly]
  | cons b xs ih =>
    rw [crcFold_cons, ih, map_add, map_mul, mk_halfPoly_upd16, ← map_mul, ← map_add, messagePoly, List.length_cons]
    exact congrArg _ (by ring)

/-- Settles O20: crc16(xs) is congruent to M(x) * x^16 modulo G(x), and its degree is below that of G(x). -/
theorem crcIsThePolynomialRemainder : Obligations.CrcIsThePolynomialRemainder := by
  intro xs
  have hcongr : mk generatorPoly (halfPoly (crc16 xs)) =
      mk generatorPoly (messagePoly xs * X ^ 16) := by
    rw [crc16, mk_halfPoly_crcFold, crcInit, halfPoly_zero, zero_mul, zero_add]
  have hdeg : (halfPoly (crc16 xs)).degree < generatorPoly.degree :=
    (degree_halfPoly_lt _).trans_eq degree_generatorPoly.symm
  calc (messagePoly xs * X ^ 16) %ₘ generatorPoly
    _ = halfPoly (crc16 xs) %ₘ generatorPoly :=
      (modByMonic_eq_of_dvd_sub generatorPoly_monic (mk_eq_mk.mp hcongr)).symm
    _ = halfPoly (crc16 xs) := (modByMonic_eq_self_iff generatorPoly_monic).mpr hdeg

end

end Sys2Proof.Machine

/-! # Codec fields and the reference parser (spec 41_codec_fields.md R81 to R93)

The fields by their values; the shape of a frame; and the parser by its rules, one per way a frame can end, from which
follow that it does not look past the frame's end and that a frame parses back. -/

namespace Sys2Proof.Machine

/-! ### The sequence number and its complement (R81, R91) -/

theorem cpl_eq_not (v : Byte) : cpl v = ~~~v := BitVec.allOnes_sub_eq_not v

theorem cpl_ne_self (v : Byte) : cpl v ≠ v := by
  unfold cpl
  bv_omega

theorem seqNext_toNat (v : Byte) : (seqNext v).toNat = (v.toNat + 1) % 256 := BitVec.toNat_add v 1

/-- Settles O24: a byte is incremented modulo 256. -/
theorem sequenceNumbersWrapModulo256 : Obligations.SequenceNumbersWrapModulo256 := ⟨seqNext_toNat, rfl, rfl⟩

/-! ### The CRC field (R84, R85) -/

theorem crcUnfield_eq_append (h l : Byte) : crcUnfield h l = h ++ l := by
  rw [BitVec.append_def, BitVec.shiftLeftZeroExtend_eq, BitVec.setWidth'_eq]
  rfl

theorem crcUnfield_extract (c : Half) : crcUnfield (c.extractLsb' 8 8) (c.extractLsb' 0 8) = c :=
  (crcUnfield_eq_append _ _).trans (BitVec.extractLsb'_append_extractLsb' (w := 8) (len := 8))

theorem crcUnfield_toNat (h l : Byte) : (crcUnfield h l).toNat = 256 * h.toNat + l.toNat := by
  rw [crcUnfield_eq_append, BitVec.toNat_append, ← Nat.shiftLeft_add_eq_or_of_lt l.isLt, Nat.shiftLeft_eq, Nat.mul_comm]

/-- Settles O22: a received field is its two bytes side by side. -/
theorem crcFieldRoundTrip : Obligations.CrcFieldRoundTrip := fun c =>
  ⟨rfl, crcUnfield_extract c, crcUnfield_toNat⟩

/-! ### The shape of a frame (R83, R86, R92) -/

theorem pad_pad {xs : List Byte} (h : xs.length ≤ 128) : pad (pad xs) = pad xs := by
  rw [pad, padding, pad_length h]
  exact List.append_nil _

theorem frame_length (v : Byte) {xs : List Byte} (h : xs.length ≤ 128) : (frame v xs).length = 133 := by
  simp [frame, hdr, pad_length h]

theorem frame_payload (v : Byte) {xs : List Byte} (h : xs.length ≤ 128) :
    ((frame v xs).drop 3).take 128 = pad xs :=
  List.take_left' (pad_length h)

theorem frame_pad (v : Byte) {xs : List Byte} (h : xs.length ≤ 128) : frame v (pad xs) = frame v xs := by
  rw [frame, pad_pad h, frame]

theorem crc16_frame_drop_header (v : Byte) (xs : List Byte) : crc16 ((frame v xs).drop 3) = 0x0000#16 :=
  crcResidueIsZero (pad xs)

/-- Settles O21, law by law; the CRC of payload and CRC field is zero by the residue law. -/
theorem fieldLaws : Obligations.FieldLaws := by
  refine ⟨fun v => ⟨?involution, cpl_ne_self v, cpl_eq_not v⟩, rfl, rfl, rfl, fun v xs hlen => ?frame⟩
  case involution => rw [cpl_eq_not, cpl_eq_not, BitVec.not_not]
  case frame =>
    exact ⟨frame_length v hlen, rfl, frame_payload v hlen, crc16_frame_drop_header v xs, (frame_pad v hlen).symm⟩

/-! ### The reference parser by its rules (R87 to R89) -/

/-- `Parses e bs v k`: `bs` begins with a frame of `k` bytes whose verdict is `v`, when sequence `e` is expected. A
control byte ends the frame at once, a header that does not match at its last byte, and a data frame at its CRC field
(R89). -/
inductive Parses (e : Byte) : List Byte → Verdict → Nat → Prop
  | control {c : Byte} {v : Verdict} (hv : (ctlClass c).verdict = some v) (ys : List Byte) : Parses e (c :: ys) v 1
  | badHeader {sn c : Byte} (hh : hdrOk e sn c = false) (ys : List Byte) :
      Parses e (sohCode :: sn :: c :: ys) .seqErr 3
  | data {sn c : Byte} {xs : List Byte} (hh : hdrOk e sn c = true) (hlen : xs.length = 128) (h l : Byte)
      (ys : List Byte) :
      Parses e (sohCode :: sn :: c :: (xs ++ h :: l :: ys)) (crcVerdict (crc16 xs) (crcUnfield h l)) 133

theorem deframe_control {c : Byte} {v : Verdict} (hv : (ctlClass c).verdict = some v) (e : Byte) (ys : List Byte) :
    deframe e (c :: ys) = some (v, 1) := by
  simp only [deframe, hv]
  rfl

theorem deframe_short_header (e : Byte) {ys : List Byte} (hlen : ys.length < 2) :
    deframe e (sohCode :: ys) = none := by
  simp only [deframe, ctlClass_verdict_none.mpr rfl, hdrLen, List.length_cons]
  exact if_pos (by omega)

/-- A whole header is checked before anything that follows it. -/
theorem deframe_header (e sn c : Byte) (zs : List Byte) :
    deframe e (sohCode :: sn :: c :: zs) =
      if hdrOk e sn c = false then some (.seqErr, 3)
      else if zs.length < 130 then none
      else some (crcVerdict (crc16 (zs.take 128)) (crcUnfield (zs.getD 128 0) (zs.getD 129 0)), 133) := by
  have hcount : (sohCode :: sn :: c :: zs).length = zs.length + 3 := rfl
  have hshort : zs.length + 3 < frameLen ↔ zs.length < 130 := by simp only [frameLen]; omega
  simp only [deframe, ctlClass_verdict_none.mpr rfl, hcount, hdrLen, hshort, Bool.not_eq_true']
  rw [if_neg (by omega)]
  rfl

theorem deframe_bad_header {e sn c : Byte} (hh : hdrOk e sn c = false) (ys : List Byte) :
    deframe e (sohCode :: sn :: c :: ys) = some (.seqErr, 3) := by
  rw [deframe_header, if_pos hh]

theorem deframe_short_frame {e sn c : Byte} {zs : List Byte} (hh : hdrOk e sn c = true) (hlen : zs.length < 130) :
    deframe e (sohCode :: sn :: c :: zs) = none := by
  rw [deframe_header, if_neg (by simp [hh]), if_pos hlen]

theorem deframe_data {e sn c : Byte} {xs : List Byte} (hh : hdrOk e sn c = true) (hlen : xs.length = 128) (h l : Byte)
    (ys : List Byte) :
    deframe e (sohCode :: sn :: c :: (xs ++ h :: l :: ys)) =
      some (crcVerdict (crc16 xs) (crcUnfield h l), 133) := by
  rw [deframe_header, if_neg (by simp [hh]), if_neg (by simp only [List.length_append, List.length_cons]; omega)]
  simp [List.take_left' hlen, List.getElem?_append_right, hlen]

theorem deframe_of_parses {e : Byte} {bs : List Byte} {v : Verdict} {k : Nat} (h : Parses e bs v k) :
    deframe e bs = some (v, k) := by
  cases h with
  | control hv ys => exact deframe_control hv e ys
  | badHeader hh ys => exact deframe_bad_header hh ys
  | data hh hlen h l ys => exact deframe_data hh hlen h l ys

theorem exists_payload_append {zs : List Byte} (hlen : 130 ≤ zs.length) :
    ∃ xs h l ys, xs.length = 128 ∧ zs = xs ++ h :: l :: ys := by
  refine ⟨zs.take 128, zs[128], zs[129], zs.drop 130, List.length_take_of_le (by omega), ?_⟩
  rw [← List.drop_eq_getElem_cons, ← List.drop_eq_getElem_cons, List.take_append_drop]

theorem parses_of_deframe {e : Byte} {bs : List Byte} {v : Verdict} {k : Nat} (h : deframe e bs = some (v, k)) :
    Parses e bs v k := by
  obtain _ | ⟨b, bs⟩ := bs
  · cases h
  cases hv : (ctlClass b).verdict with
  | some v' =>
    cases (deframe_control hv e bs).symm.trans h
    exact .control hv bs
  | none =>
    obtain rfl := ctlClass_verdict_none.mp hv
    obtain _ | ⟨sn, _ | ⟨c, zs⟩⟩ := bs
    · cases (deframe_short_header e (by simp)).symm.trans h
    · cases (deframe_short_header e (by simp)).symm.trans h
    cases hh : hdrOk e sn c with
    | false =>
      cases (deframe_bad_header hh zs).symm.trans h
      exact .badHeader hh zs
    | true =>
      obtain hlen | hlen := Nat.lt_or_ge zs.length 130
      · cases (deframe_short_frame hh hlen).symm.trans h
      · obtain ⟨xs, hi, lo, ys, hxs, rfl⟩ := exists_payload_append hlen
        cases (deframe_data hh hxs hi lo ys).symm.trans h
        exact .data hh hxs hi lo ys

/-- The parser looks no further than the frame's end. -/
theorem Parses.append {e : Byte} {bs : List Byte} {v : Verdict} {k : Nat} (h : Parses e bs v k) (ys : List Byte) :
    Parses e (bs ++ ys) v k := by
  cases h with
  | control hv zs => exact .control hv (zs ++ ys)
  | badHeader hh zs => exact .badHeader hh (zs ++ ys)
  | data hh hlen h l zs => simpa using Parses.data hh hlen h l (zs ++ ys)

/-- The bytes of the frame alone parse as it does. -/
theorem Parses.take {e : Byte} {bs : List Byte} {v : Verdict} {k : Nat} (h : Parses e bs v k) :
    Parses e (bs.take k) v k := by
  cases h with
  | control hv zs => exact .control hv []
  | badHeader hh zs => exact .badHeader hh []
  | @data _ _ xs hh hlen h l zs =>
    have hxs : (xs ++ h :: l :: zs).take 130 = xs ++ [h, l] := by simp [List.take_append, hlen]
    simpa [hxs] using Parses.data hh hlen h l []

theorem deframe_append {e : Byte} {bs : List Byte} {v : Verdict} {k : Nat} (h : deframe e bs = some (v, k))
    (ys : List Byte) : deframe e (bs ++ ys) = some (v, k) :=
  deframe_of_parses ((parses_of_deframe h).append ys)

theorem deframe_take_self {e : Byte} {bs : List Byte} {v : Verdict} {k : Nat} (h : deframe e bs = some (v, k)) :
    deframe e (bs.take k) = some (v, k) :=
  deframe_of_parses (parses_of_deframe h).take

/-- Nothing shorter than an incomplete frame is complete. -/
theorem deframe_none_of_prefix {e : Byte} {ps bs : List Byte} (hp : ps <+: bs) (h : deframe e bs = none) :
    deframe e ps = none := by
  obtain ⟨ys, rfl⟩ := hp
  cases hd : deframe e ps with
  | none => rfl
  | some r => cases (deframe_append hd ys).symm.trans h

/-- Nothing shorter than a frame is complete: what ended earlier would be the frame. -/
theorem deframe_take_of_lt {e : Byte} {bs : List Byte} {v : Verdict} {k j : Nat} (h : deframe e bs = some (v, k))
    (hj : j < k) : deframe e (bs.take j) = none := by
  cases hd : deframe e (bs.take j) with
  | none => rfl
  | some r =>
    obtain ⟨v', k'⟩ := r
    obtain ⟨-, hk'⟩ := deframe_consumes hd
    have hsame : deframe e bs = some (v', k') := by simpa using deframe_append hd (bs.drop j)
    cases h.symm.trans hsame
    simp only [List.length_take] at hk'
    omega

/-! ### A frame parses back (R93) -/

theorem hdrOk_cpl (e v : Byte) : hdrOk e v (cpl v) = decide (e = v) := by
  by_cases h : e = v
  · simp [hdrOk, h]
  · simp [hdrOk, h, Ne.symm h]

theorem deframe_frame (v : Byte) {xs : List Byte} (hlen : xs.length ≤ 128) (ys : List Byte) :
    deframe v (frame v xs ++ ys) = some (.dataOk, 133) := by
  have hh : hdrOk v v (cpl v) = true := by simp [hdrOk_cpl]
  have hbytes : frame v xs ++ ys = sohCode :: v :: cpl v ::
      (pad xs ++ (crc16 (pad xs)).extractLsb' 8 8 :: (crc16 (pad xs)).extractLsb' 0 8 :: ys) := by
    simp [frame, hdr, crcField]
  rw [hbytes, deframe_data hh (pad_length hlen), crcUnfield_extract, crcVerdict, if_pos rfl]

theorem deframe_other_sequence {e v : Byte} (hne : e ≠ v) (ys : List Byte) :
    deframe e (hdr sohCode v ++ ys) = some (.seqErr, 3) :=
  deframe_bad_header (by simp [hdrOk_cpl, hne]) ys

theorem frame_eq_hdr_append (v : Byte) (xs : List Byte) :
    frame v xs = hdr sohCode v ++ (pad xs ++ crcField (crc16 (pad xs))) := List.append_assoc _ _ _

/-- Settles O23, by the parser's rules for a whole frame and for a header of another sequence. -/
theorem frameParsesBack : Obligations.FrameParsesBack := by
  refine fun v xs hlen => ⟨deframe_frame v hlen, frame_payload v hlen, fun e hne => ?other, (frame_pad v hlen).symm⟩
  rw [frame_eq_hdr_append]
  exact deframe_other_sequence hne _

end Sys2Proof.Machine

/-! # The commands by what they do, and the framing law (spec 60_exceptions.md R135, R136; 42_tx_framer.md R96 to R99)

`exec_next` says what a command can have done; here is the converse, so that a run is computed command by command. A
data frame in progress is written out as a state, which each TX.DATA extends by one byte. -/

namespace Sys2Proof.Machine

/-! ### A command whose guard holds -/

theorem emitControl_of_emitsCode {i : Instr} {code : Byte} (hi : EmitsCode i code) (s : State) :
    exec i s = emitControl code s := by
  cases hi <;> rfl

theorem unlessTxBusy_of_idle {s : State} (hp : s.txst = .idle) (done : State) :
    unlessTxBusy s done = .next done.withOk := by
  simp only [unlessTxBusy, hp]
  rfl

theorem ifTxBusy_of_pay {s : State} (hp : s.txst = .pay) (body : Host.Outcome State Fault Refusal) :
    ifTxBusy s body = body := by
  simp only [ifTxBusy, hp]

/-- A command completes its rule wherever the guard of the rule holds (R136). -/
theorem exec_of_effect {i : Instr} {s done : State} (h : Effect s i done) : exec i s = .next done.withOk := by
  cases h with
  | sysReset | crcClr | crcByte | rxStart | rxResp => rfl
  | txSoh sn hp => exact unlessTxBusy_of_idle hp _
  | txData b hp hc => exact (ifTxBusy_of_pay hp _).trans (if_neg hc)
  | txEnd hp => exact ifTxBusy_of_pay hp _
  | txControl hi hp => exact (emitControl_of_emitsCode hi s).trans (unlessTxBusy_of_idle hp _)
  | rxCtlData b hr hv | rxCtlEnds b v hr hv => simp only [exec, execRxByte, hr, rxCtl, hv, complete]
  | rxHeaderOk b hr hh | rxHeaderBad b hr hh => simp [exec, execRxByte, hr, rxCpl, hh, complete]
  | rxSeq b hr => simp only [exec, execRxByte, hr, rxSeq, complete]
  | rxPay b hr hc => simp only [exec, execRxByte, hr, rxPay, if_neg hc, complete]
  | rxPayLast b hr hc => simp only [exec, execRxByte, hr, rxPay, if_pos hc, complete]
  | rxCrcHigh b hr => simp only [exec, execRxByte, hr, rxCrcH, complete]
  | rxCrcLow b hr => simp only [exec, execRxByte, hr, rxCrcL, complete]

/-- A command is refused with the error of the check it fails (R135). -/
theorem exec_of_refuses {i : Instr} {s : State} {code : ErrCode} (h : Refuses s i code) :
    exec i s = .next (s.withError code) := by
  cases h with
  | sohInFrame sn hp => simp only [exec, execTxSoh, unlessTxBusy, hp, raiseCmdError]
  | controlInFrame hi hp =>
    rw [emitControl_of_emitsCode hi]
    simp only [emitControl, unlessTxBusy, hp, raiseCmdError]
  | dataNoFrame b hp => simp only [exec, execTxData, ifTxBusy, hp, raiseCmdError]
  | dataFull b hp hc => exact (ifTxBusy_of_pay hp _).trans (if_pos hc)
  | endNoFrame hp => simp only [exec, execTxEnd, ifTxBusy, hp, raiseCmdError]
  | byteNotArmed b hr => simp only [exec, execRxByte, hr, raiseCmdError]

/-! ### A data frame in progress (R25, R26) -/

theorem ofNat_eq_payloadLenByte {n : Nat} (h : n ≤ 128) : BitVec.ofNat 8 n = payloadLenByte ↔ n = 128 := by
  rw [payloadLenByte, ← BitVec.toNat_inj, BitVec.toNat_ofNat, Nat.mod_eq_of_lt (by omega)]
  rfl

/-- `s` with a data frame of sequence `sn` in progress that holds the payload `xs` so far. -/
def State.inTxFrame (sn : Byte) (xs : List Byte) (s : State) : State :=
  { s with
    txout := s.txout ++ (hdr sohCode sn ++ xs), txcrc := crc16 xs, txcnt := BitVec.ofNat 8 xs.length, txst := .pay,
    err := .ok }

/-- `s` after a data frame of sequence `sn` and payload `xs`. -/
def State.afterTxFrame (sn : Byte) (xs : List Byte) (s : State) : State :=
  { s with txout := s.txout ++ frame sn xs, txcnt := 128, txcrc := crc16 (pad xs), err := .ok }

theorem exec_txSoh_of_idle (sn : Byte) {s : State} (hp : s.txst = .idle) :
    exec (.txSoh sn) s = .next (s.inTxFrame sn []) :=
  exec_of_effect (.txSoh sn hp)

theorem exec_txData_inTxFrame (sn b : Byte) {xs : List Byte} (hlen : xs.length < 128) (s : State) :
    exec (.txData b) (s.inTxFrame sn xs) = .next (s.inTxFrame sn (xs ++ [b])) := by
  have hroom : (s.inTxFrame sn xs).txcnt ≠ payloadLenByte := mt (ofNat_eq_payloadLenByte hlen.le).mp hlen.ne
  rw [exec_of_effect (.txData b rfl hroom)]
  simp [State.inTxFrame, State.emit, State.withOk, crc16_concat, BitVec.ofNat_add]

theorem execAll_txData_inTxFrame (sn : Byte) {xs ys : List Byte} (hlen : xs.length + ys.length ≤ 128) (s : State) :
    execAll (ys.map .txData) (s.inTxFrame sn xs) = .next (s.inTxFrame sn (xs ++ ys)) := by
  induction ys generalizing xs with
  | nil => rw [List.append_nil]; rfl
  | cons b ys ih =>
    rw [List.length_cons] at hlen
    have hnext := ih (xs := xs ++ [b]) (by rw [List.length_append, List.length_singleton]; omega)
    rw [List.append_assoc] at hnext
    exact (execAll_cons_of_exec (exec_txData_inTxFrame sn b (by omega) s) _).trans hnext

theorem execAll_txSoh_txData {s : State} (hp : s.txst = .idle) (sn : Byte) {xs : List Byte} (hlen : xs.length ≤ 128) :
    execAll (.txSoh sn :: xs.map .txData) s = .next (s.inTxFrame sn xs) :=
  (execAll_cons_of_exec (exec_txSoh_of_idle sn hp) _).trans
    (execAll_txData_inTxFrame sn (xs := []) (by simpa using hlen) s)

theorem exec_txEnd_inTxFrame {s : State} (hp : s.txst = .idle) (sn : Byte) {xs : List Byte} (hlen : xs.length ≤ 128) :
    exec .txEnd (s.inTxFrame sn xs) = .next (s.afterTxFrame sn xs) := by
  have hcount : (s.inTxFrame sn xs).txcnt.toNat = xs.length :=
    (BitVec.toNat_ofNat ..).trans (Nat.mod_eq_of_lt (by omega))
  have hcrc : (s.inTxFrame sn xs).paddedTxcrc = crc16 (pad xs) := by
    rw [State.paddedTxcrc, hcount]
    exact (crcFold_append crcInit xs _).symm
  rw [exec_of_effect (.txEnd rfl), hcrc, hcount]
  simp [State.inTxFrame, State.afterTxFrame, State.emit, State.withOk, frame, pad, hp, payloadLenByte]

/-! ### The framing law (R99) -/

theorem execAll_txPacketCommands {s : State} (hp : s.txst = .idle) (sn : Byte) {xs : List Byte}
    (hlen : xs.length ≤ 128) : execAll (txPacketCommands sn xs) s = .next (s.afterTxFrame sn xs) :=
  (execAll_append (execAll_txSoh_txData hp sn hlen) [.txEnd]).trans
    (execAll_cons_of_exec (exec_txEnd_inTxFrame hp sn hlen) [])

/-- The first commands of a packet: all of them, or TX.SOH and some of the bytes. -/
theorem take_txPacketCommands (sn : Byte) (xs : List Byte) {k : Nat} (hk : 0 < k) :
    (txPacketCommands sn xs).take k = txPacketCommands sn xs ∨
      (txPacketCommands sn xs).take k = .txSoh sn :: (xs.take (k - 1)).map .txData := by
  obtain ⟨n, rfl⟩ : ∃ n, k = n + 1 := ⟨k - 1, by omega⟩
  obtain hn | hn := Nat.lt_or_ge xs.length n
  · exact .inl (List.take_of_length_le (by simp [txPacketCommands]; omega))
  · exact .inr (by simp [txPacketCommands, List.take_append_of_le_length, hn])

/-- Settles O29, through the state of the frame in progress after each command. -/
theorem framingLaw : Obligations.FramingLaw := by
  intro s sn xs hp hlen
  have hrun := execAll_txPacketCommands hp sn hlen
  refine ⟨hrun, frame_length sn hlen, fun k hk _ => ?noError, ?twice⟩
  case noError =>
    obtain hall | hsome := take_txPacketCommands sn xs hk
    · exact ⟨_, (congrArg (execAll · s) hall).trans hrun, rfl, rfl⟩
    · have hlen' : (xs.take (k - 1)).length ≤ 128 := (List.length_take_le' _ _).trans hlen
      exact ⟨_, (congrArg (execAll · s) hsome).trans (execAll_txSoh_txData hp sn hlen'), rfl, rfl⟩
  case twice =>
    exact (execAll_append hrun _).trans (execAll_txPacketCommands (s := s.afterTxFrame sn xs) hp sn hlen)

end Sys2Proof.Machine

/-! # The deframer against the reference parser (spec 43_rx_deframer.md R110 to R118; 70_reset_and_hazards.md R178)

What the deframer holds after RX.START and some bytes is written out state by state (`Deframed`), with the verdict where
the frame has ended. Every byte goes from one of these states to the next, and in each of them the parser says of the
bytes so far what the deframer says. -/

namespace Sys2Proof.Machine

/-! ### The states of a frame received so far -/

/-- `s` after RX.START `e` (R110). -/
def State.rxArmed (e : Byte) (s : State) : State :=
  { s with
    rxexp := e, rxst := .ctl, rxv := .none, rxcnt := 0, rxcrc := 0x0000, rxrcrc := 0x0000, rxctl := 0x00,
    rxseq := 0x00, rxcpl := 0x00, err := .ok }

/-- `s` after RX.START `e` and the header of a data frame, `c` its complement byte (R112 to R114). -/
def State.rxHeader (e sn c : Byte) (s : State) : State :=
  { s.rxArmed e with rxctl := sohCode, rxseq := sn, rxcpl := c, rxst := .pay }

/-- `s` after RX.START `e`, such a header and the payload bytes `xs` (R115). -/
def State.rxPayload (e sn c : Byte) (xs : List Byte) (s : State) : State :=
  { s.rxHeader e sn c with rxcnt := BitVec.ofNat 8 xs.length, rxcrc := crc16 xs }

/-- `Deframed e s bs r t`: from `s`, RX.START `e` and the bytes `bs` lead to `t`, where the frame is in progress when
`r` is none and has ended at the last byte with the verdict `r` otherwise (R112 to R117). -/
inductive Deframed (e : Byte) (s : State) : List Byte → Option Verdict → State → Prop
  | armed : Deframed e s [] none (s.rxArmed e)
  | control {c : Byte} {v : Verdict} (hv : (ctlClass c).verdict = some v) :
      Deframed e s [c] (some v) { s.rxArmed e with rxctl := c, rxv := v, rxst := .idle }
  | soh : Deframed e s [sohCode] none { s.rxArmed e with rxctl := sohCode, rxst := .seq }
  | sequence (sn : Byte) :
      Deframed e s [sohCode, sn] none { s.rxArmed e with rxctl := sohCode, rxseq := sn, rxst := .cpl }
  | badHeader {sn c : Byte} (hh : hdrOk e sn c = false) :
      Deframed e s [sohCode, sn, c] (some .seqErr) { s.rxHeader e sn c with rxv := .seqErr, rxst := .idle }
  | payload {sn c : Byte} {xs : List Byte} (hh : hdrOk e sn c = true) (hlen : xs.length < 128) :
      Deframed e s (sohCode :: sn :: c :: xs) none (s.rxPayload e sn c xs)
  | wholePayload {sn c : Byte} {xs : List Byte} (hh : hdrOk e sn c = true) (hlen : xs.length = 128) :
      Deframed e s (sohCode :: sn :: c :: xs) none { s.rxPayload e sn c xs with rxst := .crcH }
  | crcHigh {sn c : Byte} {xs : List Byte} (hh : hdrOk e sn c = true) (hlen : xs.length = 128) (h : Byte) :
      Deframed e s (sohCode :: sn :: c :: (xs ++ [h])) none
        { s.rxPayload e sn c xs with rxrcrc := zext16 h <<< 8, rxst := .crcL }
  | whole {sn c : Byte} {xs : List Byte} (hh : hdrOk e sn c = true) (hlen : xs.length = 128) (h l : Byte) :
      Deframed e s (sohCode :: sn :: c :: (xs ++ [h] ++ [l])) (some (crcVerdict (crc16 xs) (crcUnfield h l)))
        { s.rxPayload e sn c xs with
          rxrcrc := crcUnfield h l, rxv := crcVerdict (crc16 xs) (crcUnfield h l), rxst := .idle }

theorem rxPayload_append (e sn c : Byte) (xs : List Byte) (b : Byte) (s : State) :
    s.rxPayload e sn c (xs ++ [b]) =
      { s.rxPayload e sn c xs with
        rxcrc := upd16 (crc16 xs) b, rxcnt := (s.rxPayload e sn c xs).rxcnt + 1 } := by
  simp [State.rxPayload, crc16_concat, BitVec.ofNat_add]

/-- RX.BYTE in a payload of fewer than 128 bytes, which it may fill. -/
theorem Deframed.rxByte_payload {e sn c : Byte} {xs : List Byte} (hh : hdrOk e sn c = true) (hlen : xs.length < 128)
    (s : State) (b : Byte) :
    ∃ u, exec (.rxByte b) (s.rxPayload e sn c xs) = .next u ∧
      Deframed e s (sohCode :: sn :: c :: (xs ++ [b])) none u := by
  have hlength : (xs ++ [b]).length = xs.length + 1 := List.length_append
  have hcount : (s.rxPayload e sn c xs).rxcnt + 1 = BitVec.ofNat 8 (xs.length + 1) := (BitVec.ofNat_add ..).symm
  have hlast := ofNat_eq_payloadLenByte (Nat.succ_le_of_lt hlen)
  rw [Nat.succ_eq_add_one, ← hcount] at hlast
  by_cases hfull : xs.length + 1 = 128
  · have hd := Deframed.wholePayload (s := s) hh (hlength.trans hfull)
    rw [rxPayload_append] at hd
    exact ⟨_, exec_of_effect (.rxPayLast b rfl (hlast.mpr hfull)), hd⟩
  · have hd := Deframed.payload (s := s) hh (hlength.trans_lt (by omega))
    rw [rxPayload_append] at hd
    exact ⟨_, exec_of_effect (.rxPay b rfl (mt hlast.mp hfull)), hd⟩

section

variable {e : Byte} {s t : State} {bs : List Byte} {r : Option Verdict}

/-- The parser says of the bytes so far what the deframer says. -/
theorem Deframed.deframe (h : Deframed e s bs r t) : Machine.deframe e bs = r.map fun v => (v, bs.length) := by
  cases h with
  | armed => rfl
  | control hv => exact deframe_control hv e []
  | soh | sequence => exact deframe_short_header e (by simp)
  | badHeader hh => exact deframe_bad_header hh []
  | payload hh hlen | wholePayload hh hlen => exact deframe_short_frame hh (by omega)
  | crcHigh hh hlen hi => exact deframe_short_frame hh (by simp [hlen])
  | whole hh hlen hi lo => simpa [hlen] using deframe_data hh hlen hi lo []

theorem Deframed.noError (h : Deframed e s bs r t) : t.err = .ok ∧ t.errs = s.errs := by
  cases h <;> exact ⟨rfl, rfl⟩

theorem Deframed.inProgress (h : Deframed e s bs none t) : t.rxst ≠ .idle ∧ t.rxv = .none := by
  cases h <;> exact ⟨nofun, rfl⟩

theorem Deframed.ended {v : Verdict} (h : Deframed e s bs (some v) t) : t.rxst = .idle ∧ t.rxv = v := by
  cases h <;> exact ⟨rfl, rfl⟩

/-- While the frame is in progress, the next byte goes on with it or ends it. -/
theorem Deframed.rxByte (h : Deframed e s bs none t) (b : Byte) :
    ∃ r u, exec (.rxByte b) t = .next u ∧ Deframed e s (bs ++ [b]) r u := by
  cases h with
  | armed =>
    cases hv : (ctlClass b).verdict with
    | none =>
      obtain rfl := ctlClass_verdict_none.mp hv
      exact ⟨_, _, exec_of_effect (.rxCtlData sohCode rfl hv), .soh⟩
    | some v => exact ⟨_, _, exec_of_effect (.rxCtlEnds b v rfl hv), .control hv⟩
  | soh => exact ⟨_, _, exec_of_effect (.rxSeq b rfl), .sequence b⟩
  | sequence sn =>
    cases hh : hdrOk e sn b with
    | true => exact ⟨_, _, exec_of_effect (.rxHeaderOk b rfl hh), .payload (xs := []) hh (by decide)⟩
    | false => exact ⟨_, _, exec_of_effect (.rxHeaderBad b rfl hh), .badHeader hh⟩
  | payload hh hlen => exact ⟨none, Deframed.rxByte_payload hh hlen s b⟩
  | wholePayload hh hlen => exact ⟨_, _, exec_of_effect (.rxCrcHigh b rfl), .crcHigh hh hlen b⟩
  | crcHigh hh hlen hi => exact ⟨_, _, exec_of_effect (.rxCrcLow b rfl), .whole hh hlen hi b⟩

/-- The first byte alone, by its class (R112). -/
theorem Deframed.firstByte {x : Byte} (h : Deframed e s [x] r t) :
    t.rxctl = x ∧
      match (ctlClass x).verdict with
      | none => t.rxst = .seq ∧ t.rxv = .none
      | some v => t.rxst = .idle ∧ t.rxv = v := by
  cases h with
  | control hv => simp [hv]
  | soh => exact ⟨rfl, rfl, rfl⟩

end

theorem rxFrameCommands_append (e : Byte) (bs ys : List Byte) :
    rxFrameCommands e (bs ++ ys) = rxFrameCommands e bs ++ rxFeedCommands ys := by
  simp [rxFrameCommands, rxFeedCommands]

/-- The bytes of a frame up to its end, or fewer: no byte stands after one that ended the frame. -/
theorem execAll_rxFrameCommands {e : Byte} {bs : List Byte} (h : deframe e bs.dropLast = none) (s : State) :
    ∃ r t, execAll (rxFrameCommands e bs) s = .next t ∧ Deframed e s bs r t := by
  induction bs using List.reverseRecOn with
  | nil => exact ⟨_, _, rfl, .armed⟩
  | append_singleton bs b ih =>
    rw [List.dropLast_concat] at h
    obtain ⟨r, t, ht, hd⟩ := ih (deframe_none_of_prefix (List.dropLast_prefix bs) h)
    obtain rfl : r = none := by simpa [h] using hd.deframe.symm
    obtain ⟨r, u, hu, hd'⟩ := hd.rxByte b
    refine ⟨r, u, ?_, hd'⟩
    rw [rxFrameCommands_append, execAll_append ht]
    exact execAll_cons_of_exec hu []

theorem execAll_rxFrameCommands_incomplete {e : Byte} {bs : List Byte} (h : deframe e bs = none) (s : State) :
    ∃ t, execAll (rxFrameCommands e bs) s = .next t ∧ Deframed e s bs none t := by
  obtain ⟨r, t, ht, hd⟩ := execAll_rxFrameCommands (deframe_none_of_prefix (List.dropLast_prefix bs) h) s
  obtain rfl : r = none := by simpa [h] using hd.deframe.symm
  exact ⟨t, ht, hd⟩

theorem execAll_rxFrameCommands_complete {e : Byte} {bs : List Byte} {v : Verdict} {k : Nat}
    (h : deframe e bs = some (v, k)) (s : State) :
    ∃ t, execAll (rxFrameCommands e (bs.take k)) s = .next t ∧ Deframed e s (bs.take k) (some v) t := by
  have hk := deframe_consumes h
  have hlast : deframe e (bs.take k).dropLast = none := by
    rw [List.dropLast_eq_take, List.take_take, List.length_take]
    exact deframe_take_of_lt h (by omega)
  obtain ⟨r, t, ht, hd⟩ := execAll_rxFrameCommands hlast s
  have hr : r.map (fun v => (v, (bs.take k).length)) = some (v, k) := hd.deframe.symm.trans (deframe_take_self h)
  obtain ⟨v', rfl, hv⟩ := Option.map_eq_some_iff.mp hr
  obtain ⟨rfl, -⟩ := Prod.mk.inj hv
  exact ⟨t, ht, hd⟩

/-! ### The deframing law (R118) -/

/-- Settles O36: while the parser finds no frame the deframer is in one, and at the frame's end they agree on it. -/
theorem deframingLaw : Obligations.DeframingLaw := by
  refine ⟨fun s e bs v k h => ⟨(deframe_consumes h).2, fun j hj => ?before, ?atEnd⟩, fun s e bs h j _ => ?incomplete,
    fun s sn xs hlen => ?frame⟩
  case before =>
    obtain ⟨t, ht, hd⟩ := execAll_rxFrameCommands_incomplete (deframe_take_of_lt h hj) s
    obtain ⟨herr, herrs⟩ := hd.noError
    obtain ⟨hst, hv⟩ := hd.inProgress
    exact ⟨t, ht, herr, herrs, hv, hst⟩
  case atEnd =>
    obtain ⟨t, ht, hd⟩ := execAll_rxFrameCommands_complete h s
    obtain ⟨herr, herrs⟩ := hd.noError
    obtain ⟨hst, hv⟩ := hd.ended
    exact ⟨t, ht, herr, herrs, hst, hv, fun b => exec_of_refuses (.byteNotArmed b hst)⟩
  case incomplete =>
    obtain ⟨t, ht, hd⟩ := execAll_rxFrameCommands_incomplete (deframe_none_of_prefix (List.take_prefix j bs) h) s
    obtain ⟨herr, herrs⟩ := hd.noError
    exact ⟨t, ht, herr, herrs, hd.inProgress.1⟩
  case frame =>
    have hparse : deframe sn (frame sn xs) = some (.dataOk, 133) := by simpa using deframe_frame sn hlen []
    obtain ⟨t, ht, hd⟩ := execAll_rxFrameCommands_complete hparse s
    rw [List.take_of_length_le (frame_length sn hlen).le] at ht
    exact ⟨t, ht, hd.ended.2⟩

/-! ### After a rejected frame (R178) -/

theorem ctlClass_verdict_other {x : Byte} (hsoh : x ≠ sohCode) (heot : x ≠ eotCode) (hetb : x ≠ etbCode)
    (hcan : x ≠ canCode) : (ctlClass x).verdict = some .badCtl := by
  simp only [ctlClass, if_neg hsoh, if_neg heot, if_neg hetb, if_neg hcan]
  rfl

/-- Settles O40: the deframer is armed anew, and the payload byte is the first of a frame. -/
theorem rejectedFrameIsNotDrained : Obligations.RejectedFrameIsNotDrained := by
  intro s sn e x xs _ hne
  have hparse : deframe e (frame sn (x :: xs)) = some (.seqErr, 3) := by
    rw [frame_eq_hdr_append]
    exact deframe_other_sequence hne _
  obtain ⟨t, ht, hd⟩ := execAll_rxFrameCommands_complete hparse s
  obtain ⟨hst, hv⟩ := hd.ended
  obtain ⟨r, u, hu, hd'⟩ := execAll_rxFrameCommands (bs := [x]) (rfl : deframe e [] = none) t
  obtain ⟨hctl, hclass⟩ := hd'.firstByte
  refine ⟨t, u, ht, hst, hv, hu, hctl, hd'.noError.1, ?_, ?_, ?_, ?_, fun hsoh heot hetb hcan => ?other⟩
  case other => rwa [ctlClass_verdict_other hsoh heot hetb hcan] at hclass
  all_goals
    rintro rfl
    exact hclass

end Sys2Proof.Machine

/-! # The transmit framer's commands (spec 42_tx_framer.md R96 to R109; 20_memory.md R52)

Each rule is read off the command's one equation, `exec_of_effect` where its guard holds and `exec_of_refuses` where a
check fails; that only TX.END and the resets end a frame, and how many bytes a command emits, are case analyses along
`Effect`. -/

namespace Sys2Proof.Machine

open Sys2Proof.Claims

/-! ### What ends a frame (R108) -/

theorem Effect.ends_frame {i : Instr} {s done : State} (h : Effect s i done) (hpay : s.txst = .pay)
    (hidle : done.txst = .idle) : i = .txEnd ∨ i = .sysReset := by
  cases h with
  | txEnd => exact .inl rfl
  | sysReset => exact .inr rfl
  | txSoh => cases hidle
  | _ => exact nomatch hpay.symm.trans hidle

theorem performWord_ends_frame {w : Half} {s t : State} (h : performWord w s = .next t) (hpay : s.txst = .pay)
    (hidle : t.txst = .idle) : decode w = .ok .txEnd ∨ decode w = .ok .sysReset := by
  obtain ⟨code, -, rfl⟩ | ⟨i, done, hw, he, rfl⟩ := performWord_performed h
  · exact nomatch hpay.symm.trans hidle
  · obtain rfl | rfl := he.ends_frame hpay hidle
    · exact .inl hw
    · exact .inr hw

/-- Settles O30: a step that waits or drops a command keeps TXST, and a word performed that ends a frame is TX.END or
SYS.RESET. -/
theorem onlyTxEndOrResetEndsAFrame : Obligations.OnlyTxEndOrResetEndsAFrame := by
  intro s t h hpay hidle
  obtain ⟨-, rfl⟩ | ⟨level, rest, hin, -⟩ | ⟨w, rest, -, -, rfl⟩ | ⟨w, rest, hin, -, hw⟩ := step_next h
  · exact nomatch hpay.symm.trans hidle
  · exact .inl ⟨rest, level, hin⟩
  · exact nomatch hpay.symm.trans hidle
  · exact .inr ⟨rest, w, hin, performWord_ends_frame hw hpay hidle⟩

/-! ### How many bytes a command emits (R52) -/

/-- TX.END fills the frame up: the pad bytes and the two bytes of the CRC field. -/
theorem padding_append_crcField_length {n : Nat} (h : n ≤ 128) (c : Half) :
    (padding n ++ crcField c).length = 130 - n := by
  rw [List.length_append, padding_length, crcField_length]
  omega

/-- Settles O32: a refusal keeps TXOUT, and the bytes that a completed command appends are in its effect. -/
theorem emittedByteCounts : Obligations.EmittedByteCounts := by
  refine ⟨fun i s t h ht => ?refused, fun i s t hcnt h ht => ?completed⟩
  case refused =>
    obtain ⟨code, -, rfl⟩ := exec_refused h ht
    rfl
  case completed =>
    obtain ⟨done, he, rfl⟩ := exec_completed h ht
    cases he with
    | txEnd =>
      rw [← padding_append_crcField_length hcnt s.paddedTxcrc]
      exact List.length_append
    | txControl hi => cases hi <;> exact List.length_append
    | txSoh | txData => exact List.length_append
    | _ => rfl

/-! ### The commands in each state of the framer (R96 to R98, R100 to R105) -/

/-- Settles O25: TX.SOH has OP 0x20, and IDLE and PAY are its guard and its one check. -/
theorem txSohStartsAFrame : Obligations.TxSohStartsAFrame :=
  ⟨decode_append 0x20, fun _ sn =>
    ⟨fun hidle => exec_of_effect (.txSoh sn hidle), fun hpay => exec_of_refuses (.sohInFrame sn hpay)⟩⟩

/-- Settles O26: TX.DATA has OP 0x21; its guard is a frame with room, and its two checks are the other cases. -/
theorem txDataEmitsOnePayloadByte : Obligations.TxDataEmitsOnePayloadByte :=
  ⟨decode_append 0x21, fun _ b =>
    ⟨fun hpay hroom => exec_of_effect (.txData b hpay hroom), fun hidle => exec_of_refuses (.dataNoFrame b hidle),
      fun hpay hfull => exec_of_refuses (.dataFull b hpay hfull)⟩⟩

/-- Settles O27: TX.END is OP 0x22 with ARG 0; in a frame it emits the pad bytes and the CRC field as one list. -/
theorem txEndPadsAndEmitsTheCrc : Obligations.TxEndPadsAndEmitsTheCrc := by
  refine ⟨zeroArgEncoding_of_decodeFields fun _ => rfl, fun s => ⟨fun hpay => ?frame, fun hidle => ?noFrame⟩⟩
  case frame =>
    intro zeros c
    rw [List.append_assoc]
    exact exec_of_effect (.txEnd hpay)
  case noFrame => exact exec_of_refuses (.endNoFrame hidle)

/-- The rows of the table of control-byte commands: each emits its code, and its word has its OP (R100 to R105). -/
theorem controlCommands_row {p : Instr × Byte × Byte} (h : p ∈ controlCommands) :
    ZeroArgEncoding p.2.1 p.1 ∧ EmitsCode p.1 p.2.2 := by
  simp only [controlCommands, List.mem_cons, List.not_mem_nil, or_false] at h
  obtain rfl | rfl | rfl | rfl | rfl | rfl := h
  all_goals refine ⟨zeroArgEncoding_of_decodeFields fun _ => rfl, ?_⟩
  exacts [.txAck, .txNak, .txEot, .txEtb, .txCan, .txSync]

/-- Settles O28: the six commands differ in their rows of the table alone; IDLE and PAY are the guard and the check of
them all. -/
theorem controlBytesAreEmittedOutsideFrames : Obligations.ControlBytesAreEmittedOutsideFrames := by
  intro p hp
  obtain ⟨hword, hcode⟩ := controlCommands_row hp
  exact ⟨hword, fun _ =>
    ⟨fun hidle => exec_of_effect (.txControl hcode hidle), fun hpay => exec_of_refuses (.controlInFrame hcode hpay)⟩⟩

end Sys2Proof.Machine

/-! # The deframer's and the classifier's commands (spec 43_rx_deframer.md R110 to R117, R119, R122, R123)

Each rule is read off the command's one equation, as for the framer. That the deframer keeps no history is its
independence of the other units, applied from RX.START on: armed states differ in no register of it. -/

namespace Sys2Proof.Machine

open Sys2Proof.Claims

/-! ### The received byte in each state of the deframer (R111 to R117) -/

theorem exec_rxByte_of_idle (b : Byte) {s : State} (hr : s.rxst = .idle) :
    exec (.rxByte b) s = .next (refusedWith .state s) :=
  exec_of_refuses (.byteNotArmed b hr)

theorem hdrOk_eq_true_iff {e v k : Byte} : hdrOk e v k = true ↔ v = e ∧ k = cpl e := by
  simp [hdrOk]

/-- The high byte of a received CRC field, the low byte still missing. -/
theorem zext16_shiftLeft_eight (h : Byte) : zext16 h <<< 8 = h ++ 0x00#8 := by
  rw [← crcUnfield_eq_append]
  exact (BitVec.or_zero (w := 16)).symm

/-- Settles O34: each state of the deframer is the guard of one rule of R112 to R117, or of two where the byte decides
whether the frame ends. -/
theorem rxByteFollowsTheDeframerState : Obligations.RxByteFollowsTheDeframerState := by
  refine ⟨decode_append 0x41, fun s b => ⟨exec_rxByte_of_idle b, fun hr => ?ctl,
    fun hr => exec_of_effect (.rxSeq b hr), fun hr => ?cpl, fun hr => ?pay, fun hr => ?crcH,
    fun hr => exec_of_effect (.rxCrcLow b hr)⟩⟩
  case ctl =>
    split_ifs with hsoh heot hetb hcan
    · exact exec_of_effect (.rxCtlData b hr (ctlClass_verdict_none.mpr hsoh))
    · exact exec_of_effect (.rxCtlEnds b .eot hr (heot ▸ rfl))
    · exact exec_of_effect (.rxCtlEnds b .etb hr (hetb ▸ rfl))
    · exact exec_of_effect (.rxCtlEnds b .can hr (hcan ▸ rfl))
    · exact exec_of_effect (.rxCtlEnds b .badCtl hr (ctlClass_verdict_other hsoh heot hetb hcan))
  case cpl =>
    split_ifs with hh
    · exact exec_of_effect (.rxHeaderOk b hr (hdrOk_eq_true_iff.mpr hh))
    · exact exec_of_effect (.rxHeaderBad b hr (Bool.eq_false_of_not_eq_true (mt hdrOk_eq_true_iff.mp hh)))
  case pay =>
    split_ifs with hc
    · exact exec_of_effect (.rxPayLast b hr hc)
    · rw [← hr]
      exact exec_of_effect (.rxPay b hr hc)
  case crcH =>
    rw [← zext16_shiftLeft_eight]
    exact exec_of_effect (.rxCrcHigh b hr)

/-! ### RX.START and RX.RESP (R110, R119) -/

theorem exec_rxStart (e : Byte) (s : State) : exec (.rxStart e) s = .next (s.rxArmed e) :=
  exec_of_effect (.rxStart e)

/-- Settles O33: RX.START has OP 0x40, and no guard. -/
theorem rxStartArmsTheDeframer : Obligations.RxStartArmsTheDeframer :=
  ⟨decode_append 0x40, fun s e => exec_rxStart e s⟩

/-- Settles O35: RX.RESP has OP 0x42, and no guard. -/
theorem rxRespClassifiesTheByte : Obligations.RxRespClassifiesTheByte :=
  ⟨decode_append 0x42, fun _ r => exec_of_effect (.rxResp r)⟩

/-! ### The deframer from one RX.START to the next (R122, R123) -/

/-- Received bytes are commands of the deframer, which read its registers alone. -/
theorem execAll_rxFeedCommands_agree {s s' : State} (bs : List Byte) (h : rxView s = rxView s') :
    AgreeOn rxView (execAll (rxFeedCommands bs) s) (execAll (rxFeedCommands bs) s') := by
  have hagree := execAll_filter_agree rxView_unchanged rx_local (rxFeedCommands bs) h
  rwa [List.filter_eq_self.mpr (by simp [rxFeedCommands, isRxCommand])] at hagree

/-- Settles O38: RX.START writes every register of the deframer, by its argument alone. -/
theorem deframerKeepsNoHistory : Obligations.DeframerKeepsNoHistory := by
  intro s₁ s₂ e bs
  have hfeed (s : State) : execAll (rxFrameCommands e bs) s = execAll (rxFeedCommands bs) (s.rxArmed e) :=
    execAll_cons_of_exec (exec_rxStart e s) _
  have harmed : rxView (s₁.rxArmed e) = rxView (s₂.rxArmed e) := rfl
  rw [hfeed, hfeed]
  exact execAll_rxFeedCommands_agree bs harmed

/-- Settles O39: the other units' commands leave the deframer alone, and RX.BYTE is refused while it is IDLE. -/
theorem verdictStaysUntilReArmed : Obligations.VerdictStaysUntilReArmed := by
  refine ⟨fun s e => ⟨_, exec_rxStart e s, rfl, rfl, rfl⟩, fun i s t hidle h hreset hstart => ?unchanged,
    fun b s hidle => exec_rxByte_of_idle b hidle⟩
  cases i with
  | sysReset => exact absurd rfl hreset
  | rxStart e => exact absurd rfl (hstart e)
  | rxByte b =>
    obtain rfl : refusedWith .state s = t := by simpa [exec_rxByte_of_idle b hidle] using h
    rfl
  | _ => exact rxView_unchanged _ s t rfl h

end Sys2Proof.Machine

/-! # SYS.RESET (spec 44_system.md R130)

That SYS.RESET alone clears ERRS, and alone but for TX.END ends a frame, is read off what a command can have done. -/

namespace Sys2Proof.Machine

open Sys2Proof.Claims

theorem exec_sysReset (s : State) : exec .sysReset s = .next (zeroed s.txout s.phase s.inputs) := rfl

/-- A refusal sets ERRS, and of the completed commands only SYS.RESET writes it. -/
theorem exec_clears_errs {i : Instr} {s t : State} (h : exec i s = .next t) (hset : s.errs = true)
    (hclear : t.errs = false) : i = .sysReset := by
  obtain ⟨code, -, rfl⟩ | ⟨done, he, rfl⟩ := exec_next h
  · exact nomatch hclear
  · by_contra hi
    exact nomatch hset.symm.trans ((he.errs_unchanged hi).symm.trans hclear)

/-- A refusal keeps TXST, and of the completed commands only TX.END and SYS.RESET take it from PAY to IDLE. -/
theorem exec_ends_frame {i : Instr} {s t : State} (h : exec i s = .next t) (hpay : s.txst = .pay)
    (hidle : t.txst = .idle) : i = .sysReset ∨ i = .txEnd := by
  obtain ⟨code, -, rfl⟩ | ⟨done, he, rfl⟩ := exec_next h
  · exact nomatch hpay.symm.trans hidle
  · exact (he.ends_frame hpay hidle).symm

/-- Settles O15: SYS.RESET is OP 0x01 with ARG 0, its reset values are those of R22, and so are the reset input's. -/
theorem sysResetRestoresEveryRegister : Obligations.SysResetRestoresEveryRegister :=
  ⟨zeroArgEncoding_of_decodeFields fun _ => rfl, fun s => ⟨exec_sysReset s, rfl⟩, by decide,
    fun _ _ _ => exec_clears_errs, fun _ _ _ => exec_ends_frame⟩

end Sys2Proof.Machine

/-! # Refusals and their errors (spec 60_exceptions.md R135 to R138)

What a command can have done is split by `Refuses`, which holds one row per check of R137. A command reports an error
exactly when it fails a check with that error, so each column of the table is a case analysis along the rows. -/

namespace Sys2Proof.Machine

open Sys2Proof.Claims

/-- Settles O41: a refusal writes the error fields alone, and a completed command keeps ERRS as R36 says. -/
theorem refusalChangesOnlyTheErrorFields : Obligations.RefusalChangesOnlyTheErrorFields := by
  obtain ⟨-, hkept, -⟩ := stickyErrorFlag
  intro w s
  obtain ⟨t, ht, -⟩ := performWord_answers w s
  refine ⟨t, ht, fun hne => ?refused, hkept w s t ht⟩
  obtain ⟨code, -, rfl⟩ | ⟨i, done, -, -, rfl⟩ := performWord_performed ht
  · rfl
  · exact absurd rfl hne

/-! ### The table of R137, error by error -/

theorem exists_emitsCode_iff {i : Instr} :
    (∃ code, EmitsCode i code) ↔ i ∈ [Instr.txAck, .txNak, .txEot, .txEtb, .txCan, .txSync] := by
  constructor
  · rintro ⟨code, hi⟩
    cases hi <;> decide
  · simp only [List.mem_cons, List.not_mem_nil, or_false]
    rintro (rfl | rfl | rfl | rfl | rfl | rfl)
    exacts [⟨_, .txAck⟩, ⟨_, .txNak⟩, ⟨_, .txEot⟩, ⟨_, .txEtb⟩, ⟨_, .txCan⟩, ⟨_, .txSync⟩]

theorem refuses_busy_iff {i : Instr} {s : State} :
    Refuses s i .busy ↔ s.txst = .pay ∧
      ((∃ sn, i = .txSoh sn) ∨ i ∈ [Instr.txAck, .txNak, .txEot, .txEtb, .txCan, .txSync]) := by
  rw [← exists_emitsCode_iff]
  constructor
  · intro h
    cases h with
    | sohInFrame sn hp => exact ⟨hp, .inl ⟨sn, rfl⟩⟩
    | controlInFrame hi hp => exact ⟨hp, .inr ⟨_, hi⟩⟩
  · rintro ⟨hp, ⟨sn, rfl⟩ | ⟨code, hi⟩⟩
    · exact .sohInFrame sn hp
    · exact .controlInFrame hi hp

theorem refuses_state_iff {i : Instr} {s : State} :
    Refuses s i .state ↔
      (s.txst = .idle ∧ ((∃ b, i = .txData b) ∨ i = .txEnd)) ∨ (s.rxst = .idle ∧ ∃ b, i = .rxByte b) := by
  constructor
  · intro h
    cases h with
    | dataNoFrame b hp => exact .inl ⟨hp, .inl ⟨b, rfl⟩⟩
    | endNoFrame hp => exact .inl ⟨hp, .inr rfl⟩
    | byteNotArmed b hr => exact .inr ⟨hr, b, rfl⟩
  · rintro (⟨hp, ⟨b, rfl⟩ | rfl⟩ | ⟨hr, b, rfl⟩)
    · exact .dataNoFrame b hp
    · exact .endNoFrame hp
    · exact .byteNotArmed b hr

theorem refuses_full_iff {i : Instr} {s : State} :
    Refuses s i .full ↔ s.txst = .pay ∧ s.txcnt = payloadLenByte ∧ ∃ b, i = .txData b := by
  constructor
  · intro h
    cases h with
    | dataFull b hp hc => exact ⟨hp, hc, b, rfl⟩
  · rintro ⟨hp, hc, b, rfl⟩
    exact .dataFull b hp hc

theorem not_refuses_illegal {i : Instr} {s : State} : ¬ Refuses s i .illegal := nofun

/-- A command reports an error exactly when it fails a check with that error. -/
theorem exec_err_eq_iff {i : Instr} {s t : State} (h : exec i s = .next t) {code : ErrCode} (hne : code ≠ .ok) :
    t.err = code ↔ Refuses s i code := by
  constructor
  · rintro rfl
    obtain ⟨code, hr, rfl⟩ := exec_refused h hne
    exact hr
  · intro hr
    obtain rfl : s.withError code = t := by simpa [exec_of_refuses hr] using h
    rfl

/-- Settles O42: every column of the table lists the checks that fail with its error. -/
theorem commandErrorsFollowTheTable : Obligations.CommandErrorsFollowTheTable := by
  refine ⟨fun i s => ?command, fun w s hw => performWord_of_illegalWord hw s⟩
  obtain ⟨t, ht, -⟩ := exec_answers i s
  exact ⟨t, ht, fun hill => not_refuses_illegal ((exec_err_eq_iff ht (by decide)).mp hill),
    (exec_err_eq_iff ht (by decide)).trans refuses_busy_iff,
    (exec_err_eq_iff ht (by decide)).trans refuses_state_iff,
    (exec_err_eq_iff ht (by decide)).trans refuses_full_iff⟩

end Sys2Proof.Machine

/-! # From one block's framer to another's deframer (spec 60_exceptions.md R144)

What the deframer's registers hold of a frame is read off the states of `Deframed`; the bytes between the two blocks are
the frame that the framing law puts on TXOUT. -/

namespace Sys2Proof.Machine

theorem Deframed.rxseq {e : Byte} {s t : State} {bs : List Byte} {r : Option Verdict} (h : Deframed e s bs r t)
    (hlen : 2 ≤ bs.length) : t.rxseq = bs.getD 1 0 := by
  cases h with
  | armed | control | soh => simp at hlen
  | _ => rfl

theorem ctlClass_verdict_ne_dataOk (c : Byte) : (ctlClass c).verdict ≠ some .dataOk := by
  cases ctlClass c <;> decide

theorem crcVerdict_eq_dataOk {computed received : Half} (h : crcVerdict computed received = .dataOk) :
    received = computed := by
  by_contra hne
  rw [crcVerdict, if_neg hne] at h
  cases h

/-- An accepted frame leaves the count of its payload and the CRC of it, computed and received. -/
theorem Deframed.dataOk {e : Byte} {s t : State} {bs : List Byte} (h : Deframed e s bs (some .dataOk) t) :
    t.rxcnt = 128#8 ∧ t.rxcrc = crc16 ((bs.drop 3).take 128) ∧ t.rxrcrc = crc16 ((bs.drop 3).take 128) := by
  generalize hr : some Verdict.dataOk = r at h
  cases h with
  | control hv => exact absurd (hv.trans hr.symm) (ctlClass_verdict_ne_dataOk _)
  | @whole sn c xs hh hlen hi lo =>
    have hpayload : (xs ++ [hi] ++ [lo]).take 128 = xs := by rw [List.append_assoc, List.take_left' hlen]
    have hcount : BitVec.ofNat 8 xs.length = 128#8 := by rw [hlen]
    simp only [List.drop_succ_cons, List.drop_zero, hpayload]
    exact ⟨hcount, rfl, crcVerdict_eq_dataOk (Option.some.inj hr).symm⟩
  | _ => cases hr

/-- Settles O37: what the sender appends is the frame, which the receiver's deframer ends with DATA_OK or, when another
sequence is expected, at its header. -/
theorem packetTravelsFromFramerToDeframer : Obligations.PacketTravelsFromFramerToDeframer := by
  intro tx rx sn e xs hidle hlen
  have hwire : (tx.afterTxFrame sn xs).txout.drop tx.txout.length = frame sn xs := List.drop_left
  refine ⟨_, execAll_txPacketCommands hidle sn hlen, ?accepted, fun hne => ?rejected⟩
  all_goals rw [hwire]
  case accepted =>
    have hparse : deframe sn (frame sn xs) = some (.dataOk, 133) := by simpa using deframe_frame sn hlen []
    obtain ⟨r, hrun, hd⟩ := execAll_rxFrameCommands_complete hparse rx
    rw [List.take_of_length_le (frame_length sn hlen).le] at hrun hd
    obtain ⟨hst, hv⟩ := hd.ended
    obtain ⟨hcnt, hcrc, hrcrc⟩ := hd.dataOk
    rw [frame_payload sn hlen] at hcrc hrcrc
    exact ⟨r, hrun, hst, hv, hcnt, hcrc, hrcrc, hd.rxseq (by rw [frame_length sn hlen]; decide), hd.noError.1⟩
  case rejected =>
    obtain ⟨r, hrun, hd⟩ := execAll_rxFrameCommands_complete (deframe_other_sequence hne []) rx
    obtain ⟨hst, hv⟩ := hd.ended
    exact ⟨r, hrun, hst, hv, hd.rxseq (Nat.le_succ 2), hd.noError.1⟩

end Sys2Proof.Machine

/-! # The sender's host (spec 60_exceptions.md R149 to R152)

A run of the host is a list of actions, a result and the bytes not read; the first lemmas say how runs are put together,
once for both hosts. Then one equation per response of each part of a send. -/

namespace Sys2Proof.Machine

/-! ### Runs put together -/

section

variable {α β : Type}

@[simp] theorem HostRun.after_mk (as bs : List HostAction) (r : Option α) (rest : List Byte) :
    HostRun.after as { actions := bs, result := r, rest } = { actions := as ++ bs, result := r, rest } := rfl

theorem HostRun.after_after (as bs : List HostAction) (r : HostRun α) :
    (r.after bs).after as = r.after (as ++ bs) := by
  simp [HostRun.after]

@[simp] theorem HostRun.andThen_waiting_mk (as : List HostAction) (rest : List Byte)
    (f : α → List Byte → HostRun β) :
    HostRun.andThen { actions := as, result := none, rest } f = { actions := as, result := none, rest } := rfl

@[simp] theorem commandActions_append (is js : List Instr) :
    commandActions (is ++ js) = commandActions is ++ commandActions js := List.map_append

end

/-! ### One packet (R151) -/

theorem respClass_eq_ack_iff {r : Byte} : respClass r = .ack ↔ r = ackCode := by
  unfold respClass
  split_ifs with hack <;> simp [hack]

/-- What the sender does about a response that is not ACK: the packet, the response, the flush. -/
def refusedActions (sn : Byte) (xs : List Byte) (r : Byte) : List HostAction :=
  commandActions (txPacketCommands sn xs ++ [.rxResp r]) ++ [.flush]

theorem sendPacket_ack (sn : Byte) (xs rs : List Byte) :
    sendPacket sn xs (ackCode :: rs) =
      { actions := commandActions (txPacketCommands sn xs ++ [.rxResp ackCode]), result := some (seqNext sn),
        rest := rs } := rfl

theorem sendPacket_refused (sn : Byte) (xs : List Byte) {r : Byte} (h : r ≠ ackCode) (rs : List Byte) :
    sendPacket sn xs (r :: rs) = (sendPacket sn xs rs).after (refusedActions sn xs r) := by
  have hmove : senderMove sn (respClass r) = .sendAgain [.flush] := if_neg (mt respClass_eq_ack_iff.mp h)
  rw [sendPacket, hmove, refusedActions]

theorem sendPacket_refusals (sn : Byte) (xs : List Byte) {refusals : List Byte} (h : ∀ r ∈ refusals, r ≠ ackCode)
    (rs : List Byte) :
    sendPacket sn xs (refusals ++ rs) = (sendPacket sn xs rs).after (refusals.flatMap (refusedActions sn xs)) := by
  induction refusals with
  | nil => rfl
  | cons r refusals ih =>
    rw [List.forall_mem_cons] at h
    obtain ⟨hr, hmore⟩ := h
    rw [List.cons_append, sendPacket_refused sn xs hr, ih hmore, HostRun.after_after, List.flatMap_cons]

/-- Settles O57: each refusal puts the packet, its response and a flush before what follows it. -/
theorem senderRepeatsThePacketUntilAck : Obligations.SenderRepeatsThePacketUntilAck := by
  intro sn xs refusals h
  refine ⟨?waiting, fun rs => ?acknowledged⟩
  case waiting =>
    have hrun := sendPacket_refusals sn xs h []
    rwa [List.append_nil] at hrun
  case acknowledged => exact (sendPacket_refusals sn xs h _).trans (congrArg _ (sendPacket_ack sn xs rs))

/-! ### The end of a send (R152) -/

theorem sendControl_cons (i : Instr) (r : Byte) (rs : List Byte) :
    sendControl i (r :: rs) =
      { actions := commandActions [i, .rxResp r], result := some (if r = ackCode then .sent else .protocolError),
        rest := rs } := by
  simp [sendControl, senderEndGoesOn, respClass_eq_ack_iff]

theorem sendEnd_ack (rs : List Byte) :
    sendEnd (ackCode :: rs) = (sendControl .txEtb rs).after (commandActions [.txEot, .rxResp ackCode]) := rfl

theorem sendEnd_refused {r : Byte} (h : r ≠ ackCode) (rs : List Byte) :
    sendEnd (r :: rs) =
      { actions := commandActions [.txEot, .rxResp r], result := some .protocolError, rest := rs } := by
  rw [sendEnd, sendControl_cons, if_neg h]
  rfl

/-- Settles O58, by the first response: TX.ETB follows an ACK alone. -/
theorem senderEndsWithEotThenEtb : Obligations.SenderEndsWithEotThenEtb :=
  ⟨rfl, fun _ rs h => sendEnd_refused h rs, rfl, fun r rs =>
    (sendEnd_ack (r :: rs)).trans (congrArg _ (sendControl_cons .txEtb r rs))⟩

/-! ### Before the first packet (R150) -/

/-- Settles O56: the first byte adds its RX.RESP in front of the flush, and the rest of the send does not see it. -/
theorem senderGoesOnWhateverTheFirstByte : Obligations.SenderGoesOnWhateverTheFirstByte :=
  ⟨fun _ _ => ⟨_, _, _, rfl, fun _ => rfl⟩, fun _ _ => rfl⟩

end Sys2Proof.Machine

/-! # The chunks of a file (spec 60_exceptions.md R151, R160)

The chunks are named by how a file is cut into them (`Chunked`), and each statement about them is an induction along
the cuts. -/

namespace Sys2Proof.Machine

/-- `Chunked file chunks`: a file of at least one byte cut into pieces of 128 bytes, the last of 1 to 128 (R151). -/
inductive Chunked : List Byte → List (List Byte) → Prop
  | last {xs : List Byte} (hpos : 0 < xs.length) (hlen : xs.length ≤ 128) : Chunked xs [xs]
  | more {xs file : List Byte} {chunks : List (List Byte)} (hlen : xs.length = 128) (h : Chunked file chunks) :
      Chunked (xs ++ file) (xs :: chunks)

theorem chunksFuel_nil (fuel : Nat) : chunksFuel fuel [] = [] := by
  cases fuel <;> rfl

theorem chunksFuel_of_pos (fuel : Nat) {file : List Byte} (hpos : 0 < file.length) :
    chunksFuel (fuel + 1) file = file.take 128 :: chunksFuel fuel (file.drop 128) := by
  cases file with
  | nil => cases hpos
  | cons x xs => rfl

theorem chunked_chunksFuel {fuel : Nat} {file : List Byte} (hpos : 0 < file.length) (hfuel : file.length ≤ fuel) :
    Chunked file (chunksFuel fuel file) := by
  induction fuel generalizing file with
  | zero => omega
  | succ fuel ih =>
    rw [chunksFuel_of_pos fuel hpos]
    obtain hlen | hlen := Nat.lt_or_ge 128 file.length
    · have hrest : (file.drop 128).length = file.length - 128 := List.length_drop
      have hcut := Chunked.more (List.length_take_of_le hlen.le) (ih (file := file.drop 128) (by omega) (by omega))
      rwa [List.take_append_drop] at hcut
    · rw [List.take_of_length_le hlen, List.drop_eq_nil_of_le hlen, chunksFuel_nil]
      exact .last hpos hlen

theorem chunked_senderChunks {file : List Byte} (h : file ≠ []) : Chunked file (senderChunks file) := by
  cases file with
  | nil => exact absurd rfl h
  | cons x xs => exact chunked_chunksFuel (Nat.zero_lt_succ _) le_rfl

section

variable {file : List Byte} {chunks : List (List Byte)}

theorem Chunked.flatten (h : Chunked file chunks) : chunks.flatten = file := by
  induction h with
  | last => simp
  | more _ _ ih => rw [List.flatten_cons, ih]

theorem Chunked.ne_nil (h : Chunked file chunks) : chunks ≠ [] := by
  cases h <;> simp

theorem Chunked.chunk_length (h : Chunked file chunks) : ∀ xs ∈ chunks, 0 < xs.length ∧ xs.length ≤ 128 := by
  induction h with
  | last hpos hlen => simp [hpos, hlen]
  | more hlen _ ih => exact List.forall_mem_cons.mpr ⟨by omega, ih⟩

theorem Chunked.dropLast_length (h : Chunked file chunks) : ∀ xs ∈ chunks.dropLast, xs.length = 128 := by
  induction h with
  | last => simp
  | more hlen h ih =>
    rw [List.dropLast_cons_of_ne_nil h.ne_nil]
    exact List.forall_mem_cons.mpr ⟨hlen, ih⟩

theorem receivedContent_cons (xs : List Byte) (chunks : List (List Byte)) :
    receivedContent (xs :: chunks) = pad xs ++ receivedContent chunks := rfl

/-- Only the last chunk is padded. -/
theorem Chunked.receivedContent_eq (h : Chunked file chunks) :
    ∃ n, n < 128 ∧ receivedContent chunks = file ++ List.replicate n 0x00 := by
  induction h with
  | @last xs hpos hlen => exact ⟨128 - xs.length, by omega, List.append_nil (pad xs)⟩
  | @more xs file chunks hlen _ ih =>
    obtain ⟨n, hn, hcontent⟩ := ih
    have hfull : pad xs = xs := by simp [pad, padding, payloadLen, hlen]
    exact ⟨n, hn, by rw [receivedContent_cons, hfull, hcontent, List.append_assoc]⟩

theorem receivedContent_length (hlen : ∀ xs ∈ chunks, xs.length ≤ 128) :
    (receivedContent chunks).length = 128 * chunks.length := by
  induction chunks with
  | nil => rfl
  | cons xs chunks ih =>
    obtain ⟨hxs, hmore⟩ := List.forall_mem_cons.mp hlen
    rw [receivedContent_cons, List.length_append, pad_length hxs, ih hmore, List.length_cons]
    omega

end

/-- Settles O53, along the cuts of the file. -/
theorem receivedFileIsTheFileZeroPadded : Obligations.ReceivedFileIsTheFileZeroPadded := by
  intro file hne
  have h := chunked_senderChunks hne
  obtain ⟨n, hn, hcontent⟩ := h.receivedContent_eq
  have hlength := receivedContent_length fun xs hxs => (h.chunk_length xs hxs).2
  exact ⟨h.flatten, h.chunk_length, h.dropLast_length, n, hn, hcontent, Dvd.intro _ hlength.symm⟩

end Sys2Proof.Machine

/-! # The receiver's host (spec 60_exceptions.md R149, R153 to R156)

One equation per outcome of a packet, for the packet itself and for each loop around it, with no fuel in it. A run over
given bytes is then these equations one after another. -/

namespace Sys2Proof.Machine

/-! ### The reply to a verdict (R154, R155) -/

/-- The rows of the receiver's reply table: the verdict, the commands issued and the next move (R154). -/
inductive Replies (e : Expecting) : Verdict → List Instr → ReceiverMove → Prop
  | accept : Replies e .dataOk [.txAck] (.accept ⟨e.sn + 1, 0⟩)
  | sameSequence : Replies e .eot [.txAck] (.sameSequence e)
  | complete : Replies e .etb [.txAck] .transferComplete
  | cancelled {v : Verdict} (hv : v = .can ∨ v = .badCtl) : Replies e v [] .cancelled
  | retry {v : Verdict} (hv : v = .seqErr ∨ v = .crcErr) (hbudget : e.retry + 1 ≠ maxRetry) :
      Replies e v [.txNak] (.retryAfter backoffSeconds ⟨e.sn, e.retry + 1⟩)
  | fail {v : Verdict} (hv : v = .seqErr ∨ v = .crcErr) (hbudget : e.retry + 1 = maxRetry) :
      Replies e v [.txNak] (.fail Config.backoffAfterLastMismatch)

theorem replies_mismatchReply {v : Verdict} (hv : v = .seqErr ∨ v = .crcErr) (e : Expecting) :
    Replies e v (mismatchReply e).1 (mismatchReply e).2 := by
  unfold mismatchReply
  split_ifs with hbudget
  · exact .fail hv hbudget
  · exact .retry hv hbudget

theorem replies_of_receiverReply {v : Verdict} {e : Expecting} {is : List Instr} {m : ReceiverMove}
    (h : receiverReply v e = some (is, m)) : Replies e v is m := by
  cases v with
  | none => cases h
  | dataOk => cases h; exact .accept
  | eot => cases h; exact .sameSequence
  | etb => cases h; exact .complete
  | can => cases h; exact .cancelled (.inl rfl)
  | badCtl => cases h; exact .cancelled (.inr rfl)
  | seqErr => cases h; exact replies_mismatchReply (.inl rfl) e
  | crcErr => cases h; exact replies_mismatchReply (.inr rfl) e

theorem receiverReply_of_replies {v : Verdict} {e : Expecting} {is : List Instr} {m : ReceiverMove}
    (h : Replies e v is m) : receiverReply v e = some (is, m) := by
  cases h with
  | accept | sameSequence | complete => rfl
  | cancelled hv => obtain rfl | rfl := hv <;> rfl
  | retry hv hbudget => obtain rfl | rfl := hv <;> simp only [receiverReply, mismatchReply, if_neg hbudget]
  | fail hv hbudget => obtain rfl | rfl := hv <;> simp only [receiverReply, mismatchReply, if_pos hbudget]

/-! ### One packet (R154) -/

theorem receivePacket_complete {e : Expecting} {bs : List Byte} {k : Nat} (hd : deframe e.sn bs = some (.etb, k)) :
    receivePacket e bs =
      { actions := commandActions (rxFrameCommands e.sn (bs.take k) ++ [.txAck]), result := some .complete,
        rest := bs.drop k } := by
  simp [receivePacket, receivePacketFuel, hd, receiverReply, replyActions]

theorem receivePacket_cancelled {e : Expecting} {bs : List Byte} {k : Nat} (hd : deframe e.sn bs = some (.can, k)) :
    receivePacket e bs =
      { actions := commandActions (rxFrameCommands e.sn (bs.take k)), result := some .cancelled,
        rest := bs.drop k } := by
  simp [receivePacket, receivePacketFuel, hd, receiverReply, replyActions, commandActions]

theorem receivePacket_frame (e : Expecting) {xs : List Byte} (hlen : xs.length ≤ 128) (ys : List Byte) :
    receivePacket e (frame e.sn xs ++ ys) =
      { actions := commandActions (rxFrameCommands e.sn (frame e.sn xs) ++ [.txAck]),
        result := some (.payload (pad xs) (expectNew (seqNext e.sn))), rest := ys } := by
  have hpayload : ((frame e.sn xs ++ ys).drop hdrLen).take payloadLen = pad xs := by
    rw [frame_eq_hdr_append, List.append_assoc, List.append_assoc]
    exact List.take_left' (pad_length hlen)
  rw [receivePacket_accept (deframe_frame e.sn hlen ys), hpayload, List.take_left' (frame_length e.sn hlen),
    List.drop_left' (frame_length e.sn hlen)]

/-- EOT is acknowledged, and the same packet expected. -/
theorem receivePacket_eot (e : Expecting) (ys : List Byte) :
    receivePacket e (eotCode :: ys) =
      (receivePacket e ys).after (commandActions (rxFrameCommands e.sn [eotCode] ++ [.txAck])) := by
  rw [receivePacket_again (deframe_control (v := .eot) rfl e.sn ys) (is := [.txAck]) rfl (.inl rfl),
    commandActions_append]
  rfl

/-- A header of another sequence is a mismatch; with budget left, the same packet is expected after the backoff. -/
theorem receivePacket_mismatch {sn v : Byte} (hne : v ≠ sn) {retry : Nat} (hretry : retry < 2) (ys : List Byte) :
    receivePacket ⟨sn, retry⟩ (hdr sohCode v ++ ys) =
      (receivePacket ⟨sn, retry + 1⟩ ys).after
        (commandActions (rxFrameCommands sn (hdr sohCode v) ++ [.txNak]) ++ [.wait backoffSeconds]) := by
  have hbudget : retry + 1 ≠ maxRetry := by simp only [maxRetry]; omega
  rw [receivePacket_again (deframe_other_sequence hne.symm ys)
    (receiverReply_of_replies (.retry (.inl rfl) hbudget)) (.inr ⟨_, rfl⟩), commandActions_append, List.append_assoc]
  rfl

/-- The third mismatch fails. -/
theorem receivePacket_last_mismatch {sn v : Byte} (hne : v ≠ sn) (ys : List Byte) :
    receivePacket ⟨sn, 2⟩ (hdr sohCode v ++ ys) =
      { actions := commandActions (rxFrameCommands sn (hdr sohCode v) ++ [.txNak]) ++
          if Config.backoffAfterLastMismatch then [.wait backoffSeconds] else [],
        result := some (.protocolError Config.backoffAfterLastMismatch), rest := ys } := by
  rw [receivePacket_fail (deframe_other_sequence hne.symm ys) rfl, commandActions_append, List.append_assoc]
  rfl

/-- Settles O54: acceptance and the retry are one row each of the reply table, and a frame of the expected sequence is
accepted. -/
theorem receiverAdvancesOnlyOnAcceptance : Obligations.ReceiverAdvancesOnlyOnAcceptance := by
  refine ⟨fun e => receiverReply_of_replies .accept, fun v e next is h => ?accept, fun v e same is h => ?sameSequence,
    fun v e same is n h => ?retry, fun e xs ys hlen => receivePacket_frame e hlen ys⟩
  all_goals cases replies_of_receiverReply h
  case accept => rfl
  case sameSequence => exact ⟨rfl, rfl⟩
  case retry => rfl

/-- Settles O52: the counter reaches MAX_RETRY at the third mismatch, in a reply and in a run. -/
theorem thirdMismatchExhaustsTheRetryBudget : Obligations.ThirdMismatchExhaustsTheRetryBudget := by
  refine ⟨fun v hv sn => ?reply, fun sn s₁ s₂ s₃ ys h₁ h₂ h₃ => ⟨Config.backoffAfterLastMismatch, ?run⟩⟩
  case reply =>
    have hv' : v = .seqErr ∨ v = .crcErr := by simpa using hv
    exact ⟨receiverReply_of_replies (.retry hv' (by simp [maxRetry])),
      receiverReply_of_replies (.retry hv' (by simp [maxRetry])), _, receiverReply_of_replies (.fail hv' rfl)⟩
  case run =>
    have hthird := receivePacket_last_mismatch h₃ ys
    have hsecond := receivePacket_mismatch h₂ (retry := 1) (by decide) (hdr sohCode s₃ ++ ys)
    have heot := receivePacket_eot ⟨sn, 1⟩ (hdr sohCode s₂ ++ (hdr sohCode s₃ ++ ys))
    have hfirst := receivePacket_mismatch h₁ (retry := 0) (by decide)
      (eotCode :: (hdr sohCode s₂ ++ (hdr sohCode s₃ ++ ys)))
    rw [hsecond.trans (congrArg _ hthird), HostRun.after_mk] at heot
    rw [heot] at hfirst
    refine hfirst.trans ?_
    simp only [HostRun.after_mk, List.append_assoc]
    rfl

end Sys2Proof.Machine

/-! # The receiver's loops and a whole transfer (spec 60_exceptions.md R149 to R156, R159, R160)

One equation per outcome of a packet for the steady state and the session, and per outcome of a session for the outer
loop; the amounts of fuel drop out because each packet takes at least one byte. -/

namespace Sys2Proof.Machine

open Sys2Proof.Claims

/-! ### The steady state (R153) -/

section

variable {bs rest : List Byte} {as : List HostAction}

theorem receivePacket_rest_length {e : Expecting} {r : PacketResult}
    (h : receivePacket e bs = { actions := as, result := some r, rest }) : rest.length < bs.length := by
  have hended : (receivePacket e bs).result = some r := by rw [h]
  have hshorter : (receivePacket e bs).rest.length < bs.length := receivePacketFuel_shorter hended
  rwa [h] at hshorter

theorem receiveSteady_payload {e next : Expecting} {bytes : List Byte}
    (h : receivePacket e bs = { actions := as, result := some (.payload bytes next), rest }) (file : List Byte)
    (timeouts : List Nat) :
    receiveSteady e file timeouts bs = (receiveSteady next (file ++ bytes) timeouts rest).after as := by
  have hfuel := receiveSteadyFuel_enough bs.length (rest.length + 1) next (file ++ bytes) timeouts rest
    (receivePacket_rest_length h) (Nat.lt_succ_self _)
  rw [receiveSteady, receiveSteadyFuel, h]
  exact congrArg (HostRun.after as) hfuel

theorem receiveSteady_complete {e : Expecting}
    (h : receivePacket e bs = { actions := as, result := some .complete, rest }) (file : List Byte)
    (timeouts : List Nat) :
    receiveSteady e file timeouts bs = { actions := as, result := some (.finished file), rest } := by
  rw [receiveSteady, receiveSteadyFuel, h]
  exact (HostRun.after_mk as [] _ rest).trans (by rw [List.append_nil])

/-! ### One round of the handshake (R153, D38) -/

theorem receiveSession_nil (timeouts : List Nat) :
    receiveSession timeouts [] = { actions := syncActions (timeouts.headD 0), result := none, rest := [] } := rfl

theorem receiveSession_payload {bytes : List Byte} {next : Expecting}
    (h : receivePacket (expectNew seqInit) bs = { actions := as, result := some (.payload bytes next), rest })
    (timeouts : List Nat) :
    receiveSession timeouts bs =
      (receiveSteady next bytes timeouts.tail rest).after (syncActions (timeouts.headD 0) ++ as) := by
  cases bs with
  | nil => cases h
  | cons b bs =>
    rw [receiveSession, receiveSessionFuel, h]
    exact HostRun.after_after _ _ _

theorem receiveSession_complete
    (h : receivePacket (expectNew seqInit) bs = { actions := as, result := some .complete, rest })
    (timeouts : List Nat) :
    receiveSession timeouts bs =
      (receiveSession timeouts.tail rest).after (syncActions (timeouts.headD 0) ++ as) := by
  cases bs with
  | nil => cases h
  | cons b bs =>
    have hfuel := receiveSessionFuel_enough (b :: bs).length (rest.length + 1) timeouts.tail rest
      (receivePacket_rest_length h) (Nat.lt_succ_self _)
    rw [receiveSession, receiveSessionFuel, h]
    exact (HostRun.after_after _ _ _).trans (congrArg (HostRun.after _) hfuel)

theorem receiveSession_cancelled
    (h : receivePacket (expectNew seqInit) bs = { actions := as, result := some .cancelled, rest })
    (timeouts : List Nat) :
    receiveSession timeouts bs =
      { actions := syncActions (timeouts.headD 0) ++ as, result := some (.restart sessionRestart timeouts.tail),
        rest } := by
  cases bs with
  | nil => cases h
  | cons b bs =>
    rw [receiveSession, receiveSessionFuel, h]
    exact congrArg (fun acts => HostRun.mk (_ ++ acts) _ rest) (List.append_nil as)

/-! ### The outer loop (R156) -/

theorem receiveFile_waiting {timeouts : List Nat}
    (h : receiveSession timeouts bs = { actions := as, result := none, rest }) :
    receiveFile true timeouts bs = { actions := as, result := none, rest } := by
  rw [receiveFile, if_pos rfl, receiveSessions, h, HostRun.andThen_waiting_mk]

theorem receiveFile_finished {timeouts : List Nat} {file : List Byte}
    (h : receiveSession timeouts bs = { actions := as, result := some (.finished file), rest }) :
    receiveFile true timeouts bs = { actions := as, result := some (.received file), rest } := by
  rw [receiveFile, if_pos rfl, receiveSessions, h]
  exact (HostRun.after_mk as [] _ rest).trans (by rw [List.append_nil])

theorem receiveFile_restart {timeouts later : List Nat} {re : SessionRestart}
    (h : receiveSession timeouts bs = { actions := as, result := some (.restart re later), rest }) :
    receiveFile true timeouts bs = (receiveFile true later rest).after (as ++ restartActions re) := by
  have hended : (receiveSession timeouts bs).result = some (.restart re later) := by rw [h]
  have hshorter : (receiveSession timeouts bs).rest.length < bs.length := receiveSessionFuel_shorter hended
  rw [h] at hshorter
  have hfuel := receiveSessions_enough bs.length (rest.length + 1) later rest hshorter (Nat.lt_succ_self _)
  rw [receiveFile, if_pos rfl, receiveSessions, h]
  exact (HostRun.after_after _ _ _).trans (congrArg (HostRun.after _) hfuel)

end

/-! ### The handshake by its first packet -/

theorem syncActions_eq (n : Nat) :
    syncActions n = (List.replicate n [HostAction.command .txSync, .wait 3]).flatten ++ [.command .txSync] := by
  induction n with
  | zero => rfl
  | succ n ih =>
    rw [syncActions, ih, List.replicate_succ, List.flatten_cons, List.append_assoc]
    rfl

/-- ETB in place of the first packet: the next round begins. -/
theorem receiveSession_etb (timeouts : List Nat) (ys : List Byte) :
    receiveSession timeouts (etbCode :: ys) =
      (receiveSession timeouts.tail ys).after
        (syncActions (timeouts.headD 0) ++ commandActions (rxFrameCommands seqInit [etbCode] ++ [.txAck])) :=
  receiveSession_complete (receivePacket_complete (deframe_control (v := .etb) rfl seqInit ys)) timeouts

/-- CAN in place of the first packet: the session restarts. -/
theorem receiveSession_can (timeouts : List Nat) (ys : List Byte) :
    receiveSession timeouts (canCode :: ys) =
      { actions := syncActions (timeouts.headD 0) ++ commandActions (rxFrameCommands seqInit [canCode]),
        result := some (.restart sessionRestart timeouts.tail), rest := ys } :=
  receiveSession_cancelled (receivePacket_cancelled (deframe_control (v := .can) rfl seqInit ys)) timeouts

/-- Settles O55: the moves are read off their table, and each run is its rounds one after another. -/
theorem handshakeFollowsTheFirstPacket : Obligations.HandshakeFollowsTheFirstPacket := by
  refine ⟨rfl, fun xs ys hlen => ?payload, fun _ => rfl, rfl, rfl, ⟨sessionRestart, rfl, rfl, rfl, rfl⟩,
    syncActions_eq, fun n m timeouts => ⟨?nothingReady, ?etb, ?can⟩⟩
  case payload =>
    rw [receivePacket_frame ⟨0x01, 0⟩ hlen ys]
    rfl
  case nothingReady => exact receiveFile_waiting (receiveSession_nil _)
  case etb => exact receiveFile_waiting (receiveSession_etb _ [])
  case can =>
    have hlater := receiveFile_waiting (receiveSession_nil (m :: timeouts))
    exact (receiveFile_restart (receiveSession_can _ [])).trans (congrArg _ hlater)

end Sys2Proof.Machine

/-! # Every byte presented once (spec 60_exceptions.md R159)

What a part of a run presents is said of its actions, and the parts of both hosts' procedures are put together by the
same two rules, one for actions before a run and one for a run after another. -/

namespace Sys2Proof.Machine

open Sys2Proof.Claims

/-! ### What actions present -/

/-- The actions `as` present the bytes `xs`, and none of them is a command `never b`. -/
def Presents (never : Byte → Instr) (as : List HostAction) (xs : List Byte) : Prop :=
  presented as = xs ∧ ∀ b, never b ∉ commandsOf as

/-- A run over the bytes `bs` presents those it does not leave, and issues no command `never b`. -/
def HostRun.PresentsRead {α : Type} (never : Byte → Instr) (bs : List Byte) (r : HostRun α) : Prop :=
  ∃ xs, Presents never r.actions xs ∧ xs ++ r.rest = bs

theorem commandsOf_append (as bs : List HostAction) : commandsOf (as ++ bs) = commandsOf as ++ commandsOf bs :=
  List.filterMap_append

theorem commandsOf_commandActions (is : List Instr) : commandsOf (commandActions is) = is := by
  induction is with
  | nil => rfl
  | cons i is ih => exact congrArg (i :: ·) ih

section

variable {never : Byte → Instr}

theorem presents_nil : Presents never [] [] := ⟨rfl, fun _ => List.not_mem_nil⟩

theorem Presents.append {as bs : List HostAction} {xs ys : List Byte} (h : Presents never as xs)
    (h' : Presents never bs ys) : Presents never (as ++ bs) (xs ++ ys) := by
  obtain ⟨hxs, hnever⟩ := h
  obtain ⟨hys, hnever'⟩ := h'
  refine ⟨List.filterMap_append.trans (congrArg₂ (· ++ ·) hxs hys), fun b => ?_⟩
  rw [commandsOf_append, List.mem_append]
  exact not_or.mpr ⟨hnever b, hnever' b⟩

variable {α β : Type}

theorem presentsRead_waiting {as : List HostAction} {bs : List Byte} (h : Presents never as bs) :
    HostRun.PresentsRead (α := α) never bs { actions := as, result := none, rest := [] } :=
  ⟨bs, h, List.append_nil bs⟩

theorem presentsRead_idle (r : Option α) (bs : List Byte) :
    HostRun.PresentsRead never bs { actions := [], result := r, rest := bs } :=
  ⟨[], presents_nil, rfl⟩

theorem HostRun.PresentsRead.after {as : List HostAction} {xs bs : List Byte} {r : HostRun α}
    (h : r.PresentsRead never bs) (has : Presents never as xs) : (r.after as).PresentsRead never (xs ++ bs) := by
  obtain ⟨ys, hys, rfl⟩ := h
  exact ⟨xs ++ ys, has.append hys, List.append_assoc xs ys r.rest⟩

theorem HostRun.PresentsRead.andThen {bs : List Byte} {r : HostRun α} {f : α → List Byte → HostRun β}
    (h : r.PresentsRead never bs) (hf : ∀ a rest, (f a rest).PresentsRead never rest) :
    (r.andThen f).PresentsRead never bs := by
  obtain ⟨as, result, rest⟩ := r
  obtain ⟨xs, hxs, rfl⟩ := h
  cases result with
  | none => exact ⟨xs, hxs, rfl⟩
  | some a => exact (hf a rest).after hxs

end

/-! ### The sender (R150 to R152) -/

theorem presents_txPacket (sn : Byte) (xs : List Byte) :
    Presents .rxByte (commandActions (txPacketCommands sn xs)) [] := by
  constructor
  · simp [presented, commandActions, txPacketCommands, List.filterMap_map, Function.comp_def]
  · simp [commandsOf_commandActions, txPacketCommands]

theorem presents_rxResp (r : Byte) : Presents .rxByte (commandActions [.rxResp r]) [r] :=
  ⟨rfl, by simp [commandsOf_commandActions]⟩

theorem presents_flush (never : Byte → Instr) : Presents never [.flush] [] := ⟨rfl, fun _ => List.not_mem_nil⟩

theorem sendPacket_presentsRead (sn : Byte) (xs rs : List Byte) : (sendPacket sn xs rs).PresentsRead .rxByte rs := by
  induction rs with
  | nil => exact presentsRead_waiting (presents_txPacket sn xs)
  | cons r rs ih =>
    have hsent := (presents_txPacket sn xs).append (presents_rxResp r)
    rw [← commandActions_append] at hsent
    by_cases hack : r = ackCode
    · subst hack
      exact ⟨[ackCode], hsent, rfl⟩
    · rw [sendPacket_refused sn xs hack]
      exact ih.after (hsent.append (presents_flush _))

theorem sendChunks_presentsRead (sn : Byte) (chunks : List (List Byte)) (rs : List Byte) :
    (sendChunks sn chunks rs).PresentsRead .rxByte rs := by
  induction chunks generalizing sn rs with
  | nil => exact presentsRead_idle _ rs
  | cons xs chunks ih => exact (sendPacket_presentsRead sn xs rs).andThen ih

theorem sendControl_presentsRead {i : Instr} (hi : Presents .rxByte (commandActions [i]) []) (rs : List Byte) :
    (sendControl i rs).PresentsRead .rxByte rs := by
  cases rs with
  | nil => exact presentsRead_waiting hi
  | cons r rs => exact ⟨[r], hi.append (presents_rxResp r), rfl⟩

theorem sendEnd_presentsRead (rs : List Byte) : (sendEnd rs).PresentsRead .rxByte rs := by
  refine (sendControl_presentsRead ⟨rfl, by simp [commandsOf_commandActions]⟩ rs).andThen fun result rest => ?_
  cases result with
  | sent => exact sendControl_presentsRead ⟨rfl, by simp [commandsOf_commandActions]⟩ rest
  | protocolError | fileError => exact presentsRead_idle _ rest

theorem presents_senderStart (first : Option Byte) : Presents .rxByte (senderStart first) first.toList := by
  cases first with
  | none => exact presents_flush _
  | some r => exact (presents_rxResp r).append (presents_flush _)

theorem sendFile_presentsRead (file : List Byte) (first : Option Byte) (rs : List Byte) :
    (sendFile (some file) first rs).PresentsRead .rxByte (first.toList ++ rs) :=
  ((sendChunks_presentsRead seqInit (senderChunks file) rs).andThen fun _ => sendEnd_presentsRead).after
    (presents_senderStart first)

/-! ### The receiver (R153 to R156) -/

theorem presents_rxFrame (e : Byte) (bs : List Byte) : Presents .rxResp (commandActions (rxFrameCommands e bs)) bs := by
  constructor
  · simp [presented, commandActions, rxFrameCommands, rxFeedCommands, List.filterMap_map, Function.comp_def]
  · simp [commandsOf_commandActions, rxFrameCommands, rxFeedCommands]

theorem presents_replyActions {v : Verdict} {e : Expecting} {is : List Instr} {m : ReceiverMove}
    (h : receiverReply v e = some (is, m)) : Presents .rxResp (replyActions is m) [] := by
  cases replies_of_receiverReply h with
  | fail =>
    -- whether a wait comes before the failure is open (I10)
    cases Config.backoffAfterLastMismatch <;> exact ⟨rfl, by simp [replyActions, commandsOf, commandActions]⟩
  | _ => exact ⟨rfl, by simp [replyActions, commandsOf, commandActions]⟩

theorem receivePacketFuel_presentsRead (fuel : Nat) (e : Expecting) (bs : List Byte) :
    (receivePacketFuel fuel e bs).PresentsRead .rxResp bs := by
  induction fuel generalizing e bs with
  | zero => exact presentsRead_idle none bs
  | succ fuel ih =>
    unfold receivePacketFuel
    split
    · exact presentsRead_waiting (presents_rxFrame e.sn bs)
    next v k _ =>
      have hfed := presents_rxFrame e.sn (bs.take k)
      have hsplit : bs.take k ++ bs.drop k = bs := List.take_append_drop k bs
      dsimp only
      split
      · exact ⟨_, hfed, hsplit⟩
      next is m hr =>
        have hsent := hfed.append (presents_replyActions hr)
        rw [List.append_nil] at hsent
        cases m with
        | sameSequence same | retryAfter _ same =>
          have hmore := (ih same (bs.drop k)).after hsent
          rwa [hsplit] at hmore
        | accept | transferComplete | cancelled | fail => exact ⟨_, hsent, hsplit⟩

theorem receiveSteadyFuel_presentsRead (fuel : Nat) (e : Expecting) (file : List Byte) (timeouts : List Nat)
    (bs : List Byte) : (receiveSteadyFuel fuel e file timeouts bs).PresentsRead .rxResp bs := by
  induction fuel generalizing e file bs with
  | zero => exact presentsRead_idle none bs
  | succ fuel ih =>
    refine (receivePacketFuel_presentsRead _ e bs).andThen fun r rest => ?_
    cases r with
    | payload bytes next => exact ih next _ rest
    | complete | cancelled | protocolError => exact presentsRead_idle _ rest

theorem presents_syncActions (n : Nat) : Presents .rxResp (syncActions n) [] := by
  have hsync : Presents .rxResp [.command .txSync] [] := ⟨rfl, by simp [commandsOf]⟩
  have hwait : Presents .rxResp [.wait syncTimeoutSeconds] [] := ⟨rfl, by simp [commandsOf]⟩
  induction n with
  | zero => exact hsync
  | succ n ih => exact hsync.append (hwait.append ih)

theorem receiveSessionFuel_presentsRead (fuel : Nat) (timeouts : List Nat) (bs : List Byte) :
    (receiveSessionFuel fuel timeouts bs).PresentsRead .rxResp bs := by
  induction fuel generalizing timeouts bs with
  | zero => exact presentsRead_idle none bs
  | succ fuel ih =>
    cases bs with
    | nil => exact presentsRead_waiting (presents_syncActions _)
    | cons b bs =>
      refine HostRun.PresentsRead.after (xs := []) ?_ (presents_syncActions _)
      refine (receivePacketFuel_presentsRead _ _ (b :: bs)).andThen fun r rest => ?_
      cases r with
      | payload bytes next => exact receiveSteadyFuel_presentsRead _ next _ _ rest
      | complete => exact ih _ rest
      | cancelled | protocolError => exact presentsRead_idle _ rest

theorem receiveSessions_presentsRead (fuel : Nat) (timeouts : List Nat) (bs : List Byte) :
    (receiveSessions fuel timeouts bs).PresentsRead .rxResp bs := by
  induction fuel generalizing timeouts bs with
  | zero => exact presentsRead_idle none bs
  | succ fuel ih =>
    refine (receiveSessionFuel_presentsRead _ timeouts bs).andThen fun r rest => ?_
    cases r with
    | finished | protocolError => exact presentsRead_idle _ rest
    | restart re later =>
      have hrestart : Presents .rxResp (restartActions re) [] := by
        unfold restartActions
        split <;> exact ⟨rfl, by simp [commandsOf]⟩
      exact (ih later rest).after hrestart

theorem HostRun.PresentsRead.presented_append_rest {α : Type} {never : Byte → Instr} {bs : List Byte} {r : HostRun α}
    (h : r.PresentsRead never bs) : presented r.actions ++ r.rest = bs ∧ ∀ b, never b ∉ commandsOf r.actions := by
  obtain ⟨xs, ⟨rfl, hnever⟩, hrest⟩ := h
  exact ⟨hrest, hnever⟩

/-- Settles O59, part by part of the two procedures. -/
theorem hostPresentsEveryByteOnce : Obligations.HostPresentsEveryByteOnce :=
  ⟨fun file rs first => (sendFile_presentsRead file first rs).presented_append_rest,
    fun timeouts bs => (receiveSessions_presentsRead _ timeouts bs).presented_append_rest⟩

end Sys2Proof.Machine

/-! # A whole transfer (spec 60_exceptions.md R149 to R154, R160)

The bytes between the two hosts are written out: a frame for each chunk, in sequence, then EOT and ETB. The sender's
commands leave them on TXOUT, packet by packet, and the receiver's loops read them back, frame by frame. -/

namespace Sys2Proof.Machine

open Sys2Proof.Claims

/-- The data frames of a transfer's chunks, the first with sequence `sn`. -/
def wireFrames : Byte → List (List Byte) → List Byte
  | _, [] => []
  | sn, xs :: chunks => frame sn xs ++ wireFrames (seqNext sn) chunks

/-! ### The sender's commands performed by an idle framer -/

/-- From every state with an idle framer, the commands `is` end in one and append `wire` to TXOUT. -/
def EmitsWhenIdle (is : List Instr) (wire : List Byte) : Prop :=
  ∀ s : State, s.txst = .idle → ∃ t, execAll is s = .next t ∧ t.txst = .idle ∧ t.txout = s.txout ++ wire

theorem EmitsWhenIdle.append {is js : List Instr} {xs ys : List Byte} (h : EmitsWhenIdle is xs)
    (h' : EmitsWhenIdle js ys) : EmitsWhenIdle (is ++ js) (xs ++ ys) := by
  intro s hs
  obtain ⟨t, ht, hidle, hout⟩ := h s hs
  obtain ⟨u, hu, hidle', hout'⟩ := h' t hidle
  exact ⟨u, (execAll_append ht js).trans hu, hidle', by rw [hout', hout, List.append_assoc]⟩

theorem emitsWhenIdle_packet (sn : Byte) {xs : List Byte} (hlen : xs.length ≤ 128) :
    EmitsWhenIdle (txPacketCommands sn xs) (frame sn xs) :=
  fun _ hs => ⟨_, execAll_txPacketCommands hs sn hlen, hs, rfl⟩

theorem emitsWhenIdle_control {i : Instr} {code : Byte} (hi : EmitsCode i code) : EmitsWhenIdle [i] [code] :=
  fun _ hs => ⟨_, execAll_cons_of_exec (exec_of_effect (.txControl hi hs)) [], hs, rfl⟩

theorem emitsWhenIdle_rxResp (r : Byte) : EmitsWhenIdle [.rxResp r] [] :=
  fun s hs => ⟨_, rfl, hs, (List.append_nil s.txout).symm⟩

/-! ### The sender with every response ACK -/

/-- The run ends with `a`, leaves `rest`, and its commands put `wire` on TXOUT. -/
def HostRun.Sends {α : Type} (r : HostRun α) (a : α) (rest wire : List Byte) : Prop :=
  ∃ as, r = { actions := as, result := some a, rest } ∧ EmitsWhenIdle (commandsOf as) wire

section

variable {α β : Type} {a : α} {b : β} {r : HostRun α} {rest rest' xs ys : List Byte}

theorem HostRun.Sends.after {as : List HostAction} (h : r.Sends a rest ys) (has : EmitsWhenIdle (commandsOf as) xs) :
    (r.after as).Sends a rest (xs ++ ys) := by
  obtain ⟨bs, rfl, hbs⟩ := h
  refine ⟨as ++ bs, rfl, ?_⟩
  rw [commandsOf_append]
  exact has.append hbs

theorem HostRun.Sends.andThen {f : α → List Byte → HostRun β} (h : r.Sends a rest xs)
    (hf : (f a rest).Sends b rest' ys) : (r.andThen f).Sends b rest' (xs ++ ys) := by
  obtain ⟨as, rfl, has⟩ := h
  exact hf.after has

end

theorem sendPacket_sends (sn : Byte) {xs : List Byte} (hlen : xs.length ≤ 128) (rs : List Byte) :
    (sendPacket sn xs (ackCode :: rs)).Sends (seqNext sn) rs (frame sn xs) := by
  refine ⟨_, sendPacket_ack sn xs rs, ?_⟩
  rw [commandsOf_commandActions]
  simpa using (emitsWhenIdle_packet sn hlen).append (emitsWhenIdle_rxResp ackCode)

theorem sendChunks_sends (sn : Byte) {chunks : List (List Byte)} (hlen : ∀ xs ∈ chunks, xs.length ≤ 128)
    (rs : List Byte) :
    ∃ next, (sendChunks sn chunks (List.replicate chunks.length ackCode ++ rs)).Sends next rs
      (wireFrames sn chunks) := by
  induction chunks generalizing sn with
  | nil => exact ⟨sn, [], rfl, fun s hs => ⟨s, rfl, hs, (List.append_nil s.txout).symm⟩⟩
  | cons xs chunks ih =>
    obtain ⟨hxs, hmore⟩ := List.forall_mem_cons.mp hlen
    obtain ⟨next, hnext⟩ := ih (seqNext sn) hmore
    exact ⟨next, (sendPacket_sends sn hxs _).andThen hnext⟩

theorem sendControl_sends {i : Instr} {code : Byte} (hi : EmitsCode i code) (rs : List Byte) :
    (sendControl i (ackCode :: rs)).Sends .sent rs [code] := by
  refine ⟨_, sendControl_cons i ackCode rs, ?_⟩
  rw [commandsOf_commandActions]
  exact (emitsWhenIdle_control hi).append (emitsWhenIdle_rxResp ackCode)

theorem sendEnd_sends (rs : List Byte) : (sendEnd (ackCode :: ackCode :: rs)).Sends .sent rs [eotCode, etbCode] :=
  (sendControl_sends .txEot (ackCode :: rs)).andThen (sendControl_sends .txEtb rs)

theorem sendFile_sends (file : List Byte) (r : Byte) (hlen : ∀ xs ∈ senderChunks file, xs.length ≤ 128) :
    (sendFile (some file) (some r) (List.replicate ((senderChunks file).length + 2) ackCode)).Sends .sent []
      (wireFrames seqInit (senderChunks file) ++ [eotCode, etbCode]) := by
  obtain ⟨next, hchunks⟩ := sendChunks_sends seqInit hlen [ackCode, ackCode]
  have hsent := hchunks.andThen (f := fun _ rest => sendEnd rest) (sendEnd_sends [])
  have hstart : EmitsWhenIdle (commandsOf (senderStart (some r))) [] := emitsWhenIdle_rxResp r
  rw [List.replicate_add]
  exact hsent.after hstart

/-! ### The receiver over the same bytes -/

/-- EOT is acknowledged, and ETB ends the transfer. -/
theorem receivePacket_eot_etb (e : Expecting) (ys : List Byte) :
    ∃ as, receivePacket e (eotCode :: etbCode :: ys) = { actions := as, result := some .complete, rest := ys } := by
  have hetb : deframe e.sn (etbCode :: ys) = some (.etb, 1) := deframe_control rfl e.sn ys
  exact ⟨_, (receivePacket_eot e (etbCode :: ys)).trans (congrArg _ (receivePacket_complete hetb))⟩

theorem receiveSteady_wireFrames (sn : Byte) {chunks : List (List Byte)} (hlen : ∀ xs ∈ chunks, xs.length ≤ 128)
    (file : List Byte) (timeouts : List Nat) (ys : List Byte) :
    ∃ as, receiveSteady (expectNew sn) file timeouts (wireFrames sn chunks ++ ([eotCode, etbCode] ++ ys)) =
      { actions := as, result := some (.finished (file ++ receivedContent chunks)), rest := ys } := by
  induction chunks generalizing sn file with
  | nil =>
    obtain ⟨as, hend⟩ := receivePacket_eot_etb (expectNew sn) ys
    exact ⟨as, (receiveSteady_complete hend file timeouts).trans (by rw [receivedContent]; simp)⟩
  | cons xs chunks ih =>
    obtain ⟨hxs, hmore⟩ := List.forall_mem_cons.mp hlen
    obtain ⟨as, hrest⟩ := ih (seqNext sn) hmore (file ++ pad xs)
    have hfirst := receiveSteady_payload (receivePacket_frame (expectNew sn) hxs
      (wireFrames (seqNext sn) chunks ++ ([eotCode, etbCode] ++ ys))) file timeouts
    rw [wireFrames, List.append_assoc, receivedContent_cons, ← List.append_assoc file]
    exact ⟨_, hfirst.trans (congrArg _ hrest)⟩

theorem receiveFile_wireFrames {chunks : List (List Byte)} (hne : chunks ≠ [])
    (hlen : ∀ xs ∈ chunks, xs.length ≤ 128) (timeouts : List Nat) (ys : List Byte) :
    ∃ as, receiveFile true timeouts (wireFrames seqInit chunks ++ ([eotCode, etbCode] ++ ys)) =
      { actions := as, result := some (.received (receivedContent chunks)), rest := ys } := by
  obtain _ | ⟨xs, chunks⟩ := chunks
  · exact absurd rfl hne
  obtain ⟨hxs, hmore⟩ := List.forall_mem_cons.mp hlen
  obtain ⟨as, hrest⟩ := receiveSteady_wireFrames (seqNext seqInit) hmore (pad xs) timeouts.tail ys
  have hfirst := receiveSession_payload (receivePacket_frame (expectNew seqInit) hxs
    (wireFrames (seqNext seqInit) chunks ++ ([eotCode, etbCode] ++ ys))) timeouts
  rw [wireFrames, List.append_assoc]
  exact ⟨_, receiveFile_finished (hfirst.trans (congrArg _ hrest))⟩

/-- Settles O60: both hosts' runs are over the same frames, which the sender's block emits. -/
theorem transferDeliversThePaddedFile : Obligations.TransferDeliversThePaddedFile := by
  intro file s timeouts hfile hidle
  have hcut := chunked_senderChunks hfile
  have hlen : ∀ xs ∈ senderChunks file, xs.length ≤ 128 := fun xs hxs => (hcut.chunk_length xs hxs).2
  obtain ⟨as, hsent, hwire⟩ := sendFile_sends file syncCode hlen
  obtain ⟨t, ht, -, hout⟩ := hwire s hidle
  have hrun : sendFile (some file) (some 0x43) (List.replicate ((senderChunks file).length + 2) 0x06) = _ := hsent
  simp only [hrun]
  refine ⟨trivial, trivial, t, _, ht, hout, fun ys => ?_⟩
  obtain ⟨bs, hreceived⟩ := receiveFile_wireFrames hcut.ne_nil hlen timeouts ys
  rw [List.append_assoc, hreceived]
  exact ⟨rfl, rfl⟩

end Sys2Proof.Machine

/-! # The reset input and the start of a run (spec 70_reset_and_hazards.md R170 to R172, R180)

The effects of the reset input on the whole state, and the step by the input's phase, one equation each. While it is
asserted the registers are held at their reset values: no step performs a command then, and no command moves the reset
input. -/

namespace Sys2Proof.Machine

open Sys2Proof.Claims

/-! ### The reset input -/

theorem setResetLine_asserted (s : State) : s.setResetLine true = zeroed s.txout .asserted s.inputs := rfl

theorem setResetLine_released {s : State} (h : s.phase = .asserted) :
    s.setResetLine false = zeroed s.txout .released s.inputs := by
  simp only [State.setResetLine, h]
  rfl

theorem step_resetLine {s : State} {level : Bool} {rest : List PortEvent} (h : s.inputs = .resetLine level :: rest) :
    step s = .next ((s.withInputs rest).setResetLine level) :=
  (step_of_inputs_cons h).trans (takeInput_resetLine level _)

theorem step_command_of_asserted {s : State} {w : Half} {rest : List PortEvent} (hp : s.phase = .asserted)
    (hin : s.inputs = .command w :: rest) : step s = .next (s.withInputs rest) :=
  (step_of_inputs_cons hin).trans (takeInput_command_of_asserted w hp)

theorem takeInput_command_of_powerOn (w : Half) {s : State} (h : s.phase = .powerOn) :
    takeInput (.command w) s = .refused .beforeFirstReset := by
  simp only [takeInput, h]

theorem step_command_of_powerOn {s : State} {w : Half} {rest : List PortEvent} (hp : s.phase = .powerOn)
    (hin : s.inputs = .command w :: rest) : step s = .refused .beforeFirstReset :=
  (step_of_inputs_cons hin).trans (takeInput_command_of_powerOn w hp)

/-! ### The registers held in reset -/

theorem heldInReset_of_phase_ne {s : State} (h : s.phase ≠ .asserted) : s.HeldInReset := fun hp => absurd hp h

theorem heldInReset_withInputs {s : State} (h : s.HeldInReset) (rest : List PortEvent) :
    (s.withInputs rest).HeldInReset :=
  fun hp => congrArg (State.withInputs rest) (h hp)

theorem heldInReset_resetRegisters (s : State) (phase : ResetPhase) :
    State.HeldInReset { s.resetRegisters with phase := phase } := by
  rintro (rfl : phase = .asserted)
  rfl

/-- The only step that performs a command starts with the reset input released, and leaves it released. -/
theorem step_keeps_heldInReset {s t : State} (hs : s.HeldInReset) (h : step s = .next t) : t.HeldInReset := by
  obtain ⟨-, rfl⟩ | ⟨level, rest, -, rfl⟩ | ⟨w, rest, -, -, rfl⟩ | ⟨w, rest, -, hp, hw⟩ := step_next h
  · exact hs
  · exact setResetLine_keeps (fun u phase _ => heldInReset_resetRegisters u phase) level
      (heldInReset_withInputs hs rest)
  · exact heldInReset_withInputs hs rest
  · obtain ⟨u, hu, hphase, -⟩ := performWord_answers w (s.withInputs rest)
    have hut : u = t := Host.Outcome.next.inj (hu.symm.trans hw)
    exact heldInReset_of_phase_ne (by simp [← hut, hphase, hp])

/-- Settles O7: the reset input's two effects, the step that drops a command, and the invariant of the step. -/
theorem resetInputPutsEveryRegisterAtItsResetValue : Obligations.ResetInputPutsEveryRegisterAtItsResetValue := by
  refine ⟨fun s rest hin => ?asserted, fun s rest hp hin => ?released,
    fun s w rest hp hin => step_command_of_asserted hp hin, fun _ _ => step_keeps_heldInReset, by decide⟩
  case asserted => rw [step_resetLine hin, setResetLine_asserted, State.withInputs_txout, State.withInputs_inputs]
  case released =>
    rw [step_resetLine hin, setResetLine_released (s := s.withInputs rest) hp, State.withInputs_txout,
      State.withInputs_inputs]

/-! ### The start of a run and the agreement of the two resets -/

/-- Settles O6: the case of the step with no input to take. -/
theorem stepWaitsWhenNothingIsPresented : Obligations.StepWaitsWhenNothingIsPresented :=
  fun _ => step_of_inputs_nil

/-- Settles O8: State.reset is the reset state field by field, and before the first reset the port refuses a command. -/
theorem commandBeforeTheFirstResetIsRefused : Obligations.CommandBeforeTheFirstResetIsRefused :=
  ⟨rfl, fun _ _ _ => step_command_of_powerOn⟩

/-- Settles O9: both leave the reset state with the same TXOUT and inputs, and SYS.RESET keeps the input released. -/
theorem sysResetAgreesWithTheResetInput : Obligations.SysResetAgreesWithTheResetInput := by
  intro s hp
  rw [exec_sysReset, hp, setResetLine_asserted, setResetLine_released (s := zeroed _ .asserted _) rfl]
  rfl

/-- Settles O47: after reset the registers meet R40, no frame is in progress and the reset input is released. -/
theorem resetMeetsTheInvariants : Obligations.ResetMeetsTheInvariants :=
  ⟨inv_resetRegisters State.reset, nofun, heldInReset_of_phase_ne (by decide), by decide⟩

end Sys2Proof.Machine
